-- ==== Sys2Proof/Word.lean ====
section
/-! DEFINITION. The machine's word and byte types (R16, R20, R100): XLEN = 64 and 8-bit bytes. -/

namespace Sys2Proof

/-- A 64-bit register value or address (R16, R50, R100). -/
abbrev Word := BitVec 64

/-- One byte of guest memory (R100). -/
abbrev Byte := BitVec 8

/-- The number of an integer register, x0 to x31 (R50, R155). -/
abbrev XReg := BitVec 5

/-- The number of a floating-point register, f0 to f31 (R55, R155). -/
abbrev FReg := BitVec 5

end Sys2Proof
end

