-- ==== Sys2Proof/Config.lean ====
section
/-! DEFINITION. What the source leaves open (R17) and what an execution of the block takes as given: the host's
parameters as plain data, and the host's reply to a system call as a free value. -/

namespace Sys2Proof

/-- The kind of an access, for the predicate MAPPED (R101, R106). -/
inductive AccessKind where
  | read
  | write
  | fetch
deriving DecidableEq, Repr, Inhabited

/-- The parameter MISALIGNED_PLAIN (R17, R107): a misaligned plain access stops, or is performed byte by byte. -/
inductive MisalignedPlain where
  | fault
  | split
deriving DecidableEq, Repr, Inhabited

/-- The parameter LRSC_MODE (R17, R66, R610, R611). -/
inductive LrscMode where
  | plain
  | reserve
deriving DecidableEq, Repr, Inhabited

/-- One range of guest bytes, `base` to `base + size - 1`, with the kinds of access the host maps there (R106). -/
structure Region where
  base  : Nat
  size  : Nat
  read  : Bool
  write : Bool
  fetch : Bool
deriving DecidableEq, Repr, Inhabited

/-- The host's parameters (R17), held as data of the state: a claim about every state holds for every value of them.
`mapping` is MAPPED as the union of its regions (R101, R106), and only the host changes it.
`withheld` is the complement of IMPLEMENTED: the mnemonics the decoder turns down (R17, R153). -/
structure Params where
  mapping         : List Region
  misalignedPlain : MisalignedPlain
  lrscMode        : LrscMode
  withheld        : List String
deriving DecidableEq, Repr, Inhabited

/-- What the host sees of a hart stopped at a system call (R17: the hart state and memory; R655 step 2), the call's number and
arguments standing in `x`: which hart it is (R800), its registers and reservation, guest memory and its mapping. -/
structure SyscallView where
  hart    : Nat
  x       : Vector Word 32
  f       : Vector Word 32
  pc      : Word
  fcsr    : BitVec 8
  resv    : Option (Word × Nat)
  mem     : List Host.Cell
  mapping : List Region
deriving DecidableEq, Repr, Inhabited

/-- What the host answers to a system call (R655, R656, R852).
`resume`: it writes bytes of guest memory, may change the mapping (R101), puts `result` in x10 and resumes the hart.
`exit`: it ends the thread. -/
inductive SyscallReply where
  | resume (result : Word) (writes : List (Word × Byte)) (mapping : Option (List Region))
  | exit
deriving DecidableEq, Repr, Inhabited

/-- FREE VALUE. The parameter SYSCALL (R17, R655): what the host answers to the `n`-th system call of a hart, made in the given
view. Nothing constrains it, so a claim holds for every host. DESIGN CHOICE, notes/assumptions/4.md: R17 has a relation, of
which this is one function, so an answer is fixed by the hart's name, its count of calls and its view. No two calls of one
execution share a name and a count, so the function leaves no execution out by itself, and two harts with equal registers may
get different answers (R812). -/
opaque Config.syscall : Nat → SyscallView → SyscallReply

end Sys2Proof
end

