-- ==== Sys2Proof/Syntax.lean ====
section
/-! DEFINITION. The instructions: one constructor for each row of spec/opcode_table.json, in the table's order.
Register numbers are the full 5-bit indices (a compressed instruction's 3-bit fields already biased by 8, R158);
an immediate is the assembled field at its own width, before extension to 64 bits (R160 to R182). -/

namespace Sys2Proof

/-- The `rm` field of a rounding instruction: the five modes and DYN. The values 5 and 6 are no instruction (R62, R403). -/
inductive Rm where
  | rne
  | rtz
  | rdn
  | rup
  | rmm
  | dyn
deriving DecidableEq, Repr, Inhabited

/-- The three CSRs that exist, by name (R65): 0x001, 0x002 and 0x003. Every other number is no instruction (R659). -/
inductive Csr where
  | fflags
  | frm
  | fcsr
deriving DecidableEq, Repr, Inhabited

/-- The 193 instructions of the opcode table (R153). The rule of each one's meaning stands beside it. -/
inductive Instr where
  -- RV64I integer register-immediate, jumps and branches
  | lui (rd : XReg) (imm : BitVec 20)  -- LUI, R305
  | auipc (rd : XReg) (imm : BitVec 20)  -- AUIPC, R306
  | jal (rd : XReg) (offset : BitVec 21)  -- JAL, R556
  | jalr (rd rs1 : XReg) (imm : BitVec 12)  -- JALR, R557
  | beq (rs1 rs2 : XReg) (offset : BitVec 13)  -- BEQ, R558
  | bne (rs1 rs2 : XReg) (offset : BitVec 13)  -- BNE, R559
  | blt (rs1 rs2 : XReg) (offset : BitVec 13)  -- BLT, R560
  | bge (rs1 rs2 : XReg) (offset : BitVec 13)  -- BGE, R561
  | bltu (rs1 rs2 : XReg) (offset : BitVec 13)  -- BLTU, R562
  | bgeu (rs1 rs2 : XReg) (offset : BitVec 13)  -- BGEU, R563
  -- RV64I loads and stores
  | lb (rd rs1 : XReg) (imm : BitVec 12)  -- LB, R574
  | lh (rd rs1 : XReg) (imm : BitVec 12)  -- LH, R575
  | lw (rd rs1 : XReg) (imm : BitVec 12)  -- LW, R576
  | ld (rd rs1 : XReg) (imm : BitVec 12)  -- LD, R577
  | lbu (rd rs1 : XReg) (imm : BitVec 12)  -- LBU, R578
  | lhu (rd rs1 : XReg) (imm : BitVec 12)  -- LHU, R579
  | lwu (rd rs1 : XReg) (imm : BitVec 12)  -- LWU, R580
  | sb (rs2 rs1 : XReg) (imm : BitVec 12)  -- SB, R581
  | sh (rs2 rs1 : XReg) (imm : BitVec 12)  -- SH, R582
  | sw (rs2 rs1 : XReg) (imm : BitVec 12)  -- SW, R583
  | sd (rs2 rs1 : XReg) (imm : BitVec 12)  -- SD, R584
  -- RV64I register-immediate
  | addi (rd rs1 : XReg) (imm : BitVec 12)  -- ADDI, R307
  | slti (rd rs1 : XReg) (imm : BitVec 12)  -- SLTI, R308
  | sltiu (rd rs1 : XReg) (imm : BitVec 12)  -- SLTIU, R309
  | xori (rd rs1 : XReg) (imm : BitVec 12)  -- XORI, R310
  | ori (rd rs1 : XReg) (imm : BitVec 12)  -- ORI, R311
  | andi (rd rs1 : XReg) (imm : BitVec 12)  -- ANDI, R312
  | slli (rd rs1 : XReg) (shamt : BitVec 6)  -- SLLI, R313
  | srli (rd rs1 : XReg) (shamt : BitVec 6)  -- SRLI, R314
  | srai (rd rs1 : XReg) (shamt : BitVec 6)  -- SRAI, R315
  -- RV64I register-register
  | add (rd rs1 rs2 : XReg)  -- ADD, R316
  | sub (rd rs1 rs2 : XReg)  -- SUB, R317
  | sll (rd rs1 rs2 : XReg)  -- SLL, R318
  | slt (rd rs1 rs2 : XReg)  -- SLT, R319
  | sltu (rd rs1 rs2 : XReg)  -- SLTU, R320
  | xor (rd rs1 rs2 : XReg)  -- XOR, R321
  | srl (rd rs1 rs2 : XReg)  -- SRL, R322
  | sra (rd rs1 rs2 : XReg)  -- SRA, R323
  | or (rd rs1 rs2 : XReg)  -- OR, R324
  | and (rd rs1 rs2 : XReg)  -- AND, R325
  -- Fences and system
  | fence (fm pred succ : BitVec 4) (rs1 rd : XReg)  -- FENCE, R650
  | fenceI (imm : BitVec 12) (rs1 rd : XReg)  -- FENCE.I, R651
  | ecall  -- ECALL, R652
  | ebreak  -- EBREAK, R653
  -- RV64I word forms
  | addiw (rd rs1 : XReg) (imm : BitVec 12)  -- ADDIW, R326
  | slliw (rd rs1 : XReg) (shamt : BitVec 5)  -- SLLIW, R327
  | srliw (rd rs1 : XReg) (shamt : BitVec 5)  -- SRLIW, R328
  | sraiw (rd rs1 : XReg) (shamt : BitVec 5)  -- SRAIW, R329
  | addw (rd rs1 rs2 : XReg)  -- ADDW, R330
  | subw (rd rs1 rs2 : XReg)  -- SUBW, R331
  | sllw (rd rs1 rs2 : XReg)  -- SLLW, R332
  | srlw (rd rs1 rs2 : XReg)  -- SRLW, R333
  | sraw (rd rs1 rs2 : XReg)  -- SRAW, R334
  -- RV64M
  | mul (rd rs1 rs2 : XReg)  -- MUL, R351
  | mulh (rd rs1 rs2 : XReg)  -- MULH, R352
  | mulhsu (rd rs1 rs2 : XReg)  -- MULHSU, R353
  | mulhu (rd rs1 rs2 : XReg)  -- MULHU, R354
  | div (rd rs1 rs2 : XReg)  -- DIV, R355
  | divu (rd rs1 rs2 : XReg)  -- DIVU, R356
  | rem (rd rs1 rs2 : XReg)  -- REM, R357
  | remu (rd rs1 rs2 : XReg)  -- REMU, R358
  | mulw (rd rs1 rs2 : XReg)  -- MULW, R359
  | divw (rd rs1 rs2 : XReg)  -- DIVW, R360
  | divuw (rd rs1 rs2 : XReg)  -- DIVUW, R361
  | remw (rd rs1 rs2 : XReg)  -- REMW, R362
  | remuw (rd rs1 rs2 : XReg)  -- REMUW, R363
  -- RV64A load-reserved and store-conditional
  | lrW (rd rs1 : XReg) (aq rl : Bool)  -- LR.W, R615
  | scW (rd rs1 rs2 : XReg) (aq rl : Bool)  -- SC.W, R616
  | lrD (rd rs1 : XReg) (aq rl : Bool)  -- LR.D, R617
  | scD (rd rs1 rs2 : XReg) (aq rl : Bool)  -- SC.D, R618
  -- RV64A read-modify-write, word
  | amoswapW (rd rs1 rs2 : XReg) (aq rl : Bool)  -- AMOSWAP.W, R620
  | amoaddW (rd rs1 rs2 : XReg) (aq rl : Bool)  -- AMOADD.W, R621
  | amoxorW (rd rs1 rs2 : XReg) (aq rl : Bool)  -- AMOXOR.W, R622
  | amoandW (rd rs1 rs2 : XReg) (aq rl : Bool)  -- AMOAND.W, R623
  | amoorW (rd rs1 rs2 : XReg) (aq rl : Bool)  -- AMOOR.W, R624
  | amominW (rd rs1 rs2 : XReg) (aq rl : Bool)  -- AMOMIN.W, R625
  | amomaxW (rd rs1 rs2 : XReg) (aq rl : Bool)  -- AMOMAX.W, R626
  | amominuW (rd rs1 rs2 : XReg) (aq rl : Bool)  -- AMOMINU.W, R627
  | amomaxuW (rd rs1 rs2 : XReg) (aq rl : Bool)  -- AMOMAXU.W, R628
  -- RV64A read-modify-write, doubleword
  | amoswapD (rd rs1 rs2 : XReg) (aq rl : Bool)  -- AMOSWAP.D, R629
  | amoaddD (rd rs1 rs2 : XReg) (aq rl : Bool)  -- AMOADD.D, R630
  | amoxorD (rd rs1 rs2 : XReg) (aq rl : Bool)  -- AMOXOR.D, R631
  | amoandD (rd rs1 rs2 : XReg) (aq rl : Bool)  -- AMOAND.D, R632
  | amoorD (rd rs1 rs2 : XReg) (aq rl : Bool)  -- AMOOR.D, R633
  | amominD (rd rs1 rs2 : XReg) (aq rl : Bool)  -- AMOMIN.D, R634
  | amomaxD (rd rs1 rs2 : XReg) (aq rl : Bool)  -- AMOMAX.D, R635
  | amominuD (rd rs1 rs2 : XReg) (aq rl : Bool)  -- AMOMINU.D, R636
  | amomaxuD (rd rs1 rs2 : XReg) (aq rl : Bool)  -- AMOMAXU.D, R637
  -- Zicsr
  | csrrw (rd : XReg) (csr : Csr) (rs1 : XReg)  -- CSRRW, R660
  | csrrs (rd : XReg) (csr : Csr) (rs1 : XReg)  -- CSRRS, R661
  | csrrc (rd : XReg) (csr : Csr) (rs1 : XReg)  -- CSRRC, R662
  | csrrwi (rd : XReg) (csr : Csr) (uimm : BitVec 5)  -- CSRRWI, R663
  | csrrsi (rd : XReg) (csr : Csr) (uimm : BitVec 5)  -- CSRRSI, R664
  | csrrci (rd : XReg) (csr : Csr) (uimm : BitVec 5)  -- CSRRCI, R665
  -- RV64F
  | flw (frd : FReg) (rs1 : XReg) (imm : BitVec 12)  -- FLW, R450
  | fsw (frs2 : FReg) (rs1 : XReg) (imm : BitVec 12)  -- FSW, R451
  | fmaddS (frd frs1 frs2 frs3 : FReg) (rm : Rm)  -- FMADD.S, R452
  | fmsubS (frd frs1 frs2 frs3 : FReg) (rm : Rm)  -- FMSUB.S, R453
  | fnmsubS (frd frs1 frs2 frs3 : FReg) (rm : Rm)  -- FNMSUB.S, R454
  | fnmaddS (frd frs1 frs2 frs3 : FReg) (rm : Rm)  -- FNMADD.S, R455
  | faddS (frd frs1 frs2 : FReg) (rm : Rm)  -- FADD.S, R456
  | fsubS (frd frs1 frs2 : FReg) (rm : Rm)  -- FSUB.S, R457
  | fmulS (frd frs1 frs2 : FReg) (rm : Rm)  -- FMUL.S, R458
  | fdivS (frd frs1 frs2 : FReg) (rm : Rm)  -- FDIV.S, R459
  | fsqrtS (frd frs1 : FReg) (rm : Rm)  -- FSQRT.S, R460
  | fsgnjS (frd frs1 frs2 : FReg)  -- FSGNJ.S, R461
  | fsgnjnS (frd frs1 frs2 : FReg)  -- FSGNJN.S, R462
  | fsgnjxS (frd frs1 frs2 : FReg)  -- FSGNJX.S, R463
  | fminS (frd frs1 frs2 : FReg)  -- FMIN.S, R464
  | fmaxS (frd frs1 frs2 : FReg)  -- FMAX.S, R465
  | fcvtWS (rd : XReg) (frs1 : FReg) (rm : Rm)  -- FCVT.W.S, R466
  | fcvtWUS (rd : XReg) (frs1 : FReg) (rm : Rm)  -- FCVT.WU.S, R467
  | fcvtLS (rd : XReg) (frs1 : FReg) (rm : Rm)  -- FCVT.L.S, R468
  | fcvtLUS (rd : XReg) (frs1 : FReg) (rm : Rm)  -- FCVT.LU.S, R469
  | fmvXW (rd : XReg) (frs1 : FReg)  -- FMV.X.W, R470
  | feqS (rd : XReg) (frs1 frs2 : FReg)  -- FEQ.S, R471
  | fltS (rd : XReg) (frs1 frs2 : FReg)  -- FLT.S, R472
  | fleS (rd : XReg) (frs1 frs2 : FReg)  -- FLE.S, R473
  | fclassS (rd : XReg) (frs1 : FReg)  -- FCLASS.S, R474
  | fcvtSW (frd : FReg) (rs1 : XReg) (rm : Rm)  -- FCVT.S.W, R475
  | fcvtSWU (frd : FReg) (rs1 : XReg) (rm : Rm)  -- FCVT.S.WU, R476
  | fcvtSL (frd : FReg) (rs1 : XReg) (rm : Rm)  -- FCVT.S.L, R477
  | fcvtSLU (frd : FReg) (rs1 : XReg) (rm : Rm)  -- FCVT.S.LU, R478
  | fmvWX (frd : FReg) (rs1 : XReg)  -- FMV.W.X, R479
  -- RV64D
  | fld (frd : FReg) (rs1 : XReg) (imm : BitVec 12)  -- FLD, R500
  | fsd (frs2 : FReg) (rs1 : XReg) (imm : BitVec 12)  -- FSD, R501
  | fmaddD (frd frs1 frs2 frs3 : FReg) (rm : Rm)  -- FMADD.D, R502
  | fmsubD (frd frs1 frs2 frs3 : FReg) (rm : Rm)  -- FMSUB.D, R503
  | fnmsubD (frd frs1 frs2 frs3 : FReg) (rm : Rm)  -- FNMSUB.D, R504
  | fnmaddD (frd frs1 frs2 frs3 : FReg) (rm : Rm)  -- FNMADD.D, R505
  | faddD (frd frs1 frs2 : FReg) (rm : Rm)  -- FADD.D, R506
  | fsubD (frd frs1 frs2 : FReg) (rm : Rm)  -- FSUB.D, R507
  | fmulD (frd frs1 frs2 : FReg) (rm : Rm)  -- FMUL.D, R508
  | fdivD (frd frs1 frs2 : FReg) (rm : Rm)  -- FDIV.D, R509
  | fsqrtD (frd frs1 : FReg) (rm : Rm)  -- FSQRT.D, R510
  | fsgnjD (frd frs1 frs2 : FReg)  -- FSGNJ.D, R511
  | fsgnjnD (frd frs1 frs2 : FReg)  -- FSGNJN.D, R512
  | fsgnjxD (frd frs1 frs2 : FReg)  -- FSGNJX.D, R513
  | fminD (frd frs1 frs2 : FReg)  -- FMIN.D, R514
  | fmaxD (frd frs1 frs2 : FReg)  -- FMAX.D, R515
  | fcvtSD (frd frs1 : FReg) (rm : Rm)  -- FCVT.S.D, R516
  | fcvtDS (frd frs1 : FReg) (rm : Rm)  -- FCVT.D.S, R517
  | feqD (rd : XReg) (frs1 frs2 : FReg)  -- FEQ.D, R518
  | fltD (rd : XReg) (frs1 frs2 : FReg)  -- FLT.D, R519
  | fleD (rd : XReg) (frs1 frs2 : FReg)  -- FLE.D, R520
  | fclassD (rd : XReg) (frs1 : FReg)  -- FCLASS.D, R521
  | fcvtWD (rd : XReg) (frs1 : FReg) (rm : Rm)  -- FCVT.W.D, R522
  | fcvtWUD (rd : XReg) (frs1 : FReg) (rm : Rm)  -- FCVT.WU.D, R523
  | fcvtLD (rd : XReg) (frs1 : FReg) (rm : Rm)  -- FCVT.L.D, R524
  | fcvtLUD (rd : XReg) (frs1 : FReg) (rm : Rm)  -- FCVT.LU.D, R525
  | fmvXD (rd : XReg) (frs1 : FReg)  -- FMV.X.D, R526
  | fcvtDW (frd : FReg) (rs1 : XReg) (rm : Rm)  -- FCVT.D.W, R527
  | fcvtDWU (frd : FReg) (rs1 : XReg) (rm : Rm)  -- FCVT.D.WU, R528
  | fcvtDL (frd : FReg) (rs1 : XReg) (rm : Rm)  -- FCVT.D.L, R529
  | fcvtDLU (frd : FReg) (rs1 : XReg) (rm : Rm)  -- FCVT.D.LU, R530
  | fmvDX (frd : FReg) (rs1 : XReg)  -- FMV.D.X, R531
  -- RV64C
  | cAddi4spn (rd : XReg) (nzuimm : BitVec 10)  -- C.ADDI4SPN, R705
  | cFld (frd : FReg) (rs1 : XReg) (uimm : BitVec 8)  -- C.FLD, R706
  | cLw (rd rs1 : XReg) (uimm : BitVec 7)  -- C.LW, R707
  | cLd (rd rs1 : XReg) (uimm : BitVec 8)  -- C.LD, R708
  | cFsd (frs2 : FReg) (rs1 : XReg) (uimm : BitVec 8)  -- C.FSD, R709
  | cSw (rs2 rs1 : XReg) (uimm : BitVec 7)  -- C.SW, R710
  | cSd (rs2 rs1 : XReg) (uimm : BitVec 8)  -- C.SD, R711
  | cNop (imm : BitVec 6)  -- C.NOP, R712
  | cAddi (rd : XReg) (imm : BitVec 6)  -- C.ADDI, R713
  | cAddiw (rd : XReg) (imm : BitVec 6)  -- C.ADDIW, R714
  | cLi (rd : XReg) (imm : BitVec 6)  -- C.LI, R715
  | cAddi16sp (nzimm : BitVec 10)  -- C.ADDI16SP, R716
  | cLui (rd : XReg) (nzimm : BitVec 18)  -- C.LUI, R717
  | cSrli (rd : XReg) (shamt : BitVec 6)  -- C.SRLI, R718
  | cSrai (rd : XReg) (shamt : BitVec 6)  -- C.SRAI, R719
  | cAndi (rd : XReg) (imm : BitVec 6)  -- C.ANDI, R720
  | cSub (rd rs2 : XReg)  -- C.SUB, R721
  | cXor (rd rs2 : XReg)  -- C.XOR, R722
  | cOr (rd rs2 : XReg)  -- C.OR, R723
  | cAnd (rd rs2 : XReg)  -- C.AND, R724
  | cSubw (rd rs2 : XReg)  -- C.SUBW, R725
  | cAddw (rd rs2 : XReg)  -- C.ADDW, R726
  | cJ (offset : BitVec 12)  -- C.J, R727
  | cBeqz (rs1 : XReg) (offset : BitVec 9)  -- C.BEQZ, R728
  | cBnez (rs1 : XReg) (offset : BitVec 9)  -- C.BNEZ, R729
  | cSlli (rd : XReg) (shamt : BitVec 6)  -- C.SLLI, R730
  | cFldsp (frd : FReg) (uimm : BitVec 9)  -- C.FLDSP, R731
  | cLwsp (rd : XReg) (uimm : BitVec 8)  -- C.LWSP, R732
  | cLdsp (rd : XReg) (uimm : BitVec 9)  -- C.LDSP, R733
  | cJr (rs1 : XReg)  -- C.JR, R734
  | cMv (rd rs2 : XReg)  -- C.MV, R735
  | cEbreak  -- C.EBREAK, R736
  | cJalr (rs1 : XReg)  -- C.JALR, R737
  | cAdd (rd rs2 : XReg)  -- C.ADD, R738
  | cFsdsp (frs2 : FReg) (uimm : BitVec 9)  -- C.FSDSP, R739
  | cSwsp (rs2 : XReg) (uimm : BitVec 8)  -- C.SWSP, R740
  | cSdsp (rs2 : XReg) (uimm : BitVec 9)  -- C.SDSP, R741
deriving DecidableEq, Repr

/-- The mnemonic of an instruction, letter for letter as spec/opcode_table.json spells it. -/
def Instr.mnemonic : Instr → String
  | .lui _ _ => "LUI"
  | .auipc _ _ => "AUIPC"
  | .jal _ _ => "JAL"
  | .jalr _ _ _ => "JALR"
  | .beq _ _ _ => "BEQ"
  | .bne _ _ _ => "BNE"
  | .blt _ _ _ => "BLT"
  | .bge _ _ _ => "BGE"
  | .bltu _ _ _ => "BLTU"
  | .bgeu _ _ _ => "BGEU"
  | .lb _ _ _ => "LB"
  | .lh _ _ _ => "LH"
  | .lw _ _ _ => "LW"
  | .ld _ _ _ => "LD"
  | .lbu _ _ _ => "LBU"
  | .lhu _ _ _ => "LHU"
  | .lwu _ _ _ => "LWU"
  | .sb _ _ _ => "SB"
  | .sh _ _ _ => "SH"
  | .sw _ _ _ => "SW"
  | .sd _ _ _ => "SD"
  | .addi _ _ _ => "ADDI"
  | .slti _ _ _ => "SLTI"
  | .sltiu _ _ _ => "SLTIU"
  | .xori _ _ _ => "XORI"
  | .ori _ _ _ => "ORI"
  | .andi _ _ _ => "ANDI"
  | .slli _ _ _ => "SLLI"
  | .srli _ _ _ => "SRLI"
  | .srai _ _ _ => "SRAI"
  | .add _ _ _ => "ADD"
  | .sub _ _ _ => "SUB"
  | .sll _ _ _ => "SLL"
  | .slt _ _ _ => "SLT"
  | .sltu _ _ _ => "SLTU"
  | .xor _ _ _ => "XOR"
  | .srl _ _ _ => "SRL"
  | .sra _ _ _ => "SRA"
  | .or _ _ _ => "OR"
  | .and _ _ _ => "AND"
  | .fence _ _ _ _ _ => "FENCE"
  | .fenceI _ _ _ => "FENCE.I"
  | .ecall => "ECALL"
  | .ebreak => "EBREAK"
  | .addiw _ _ _ => "ADDIW"
  | .slliw _ _ _ => "SLLIW"
  | .srliw _ _ _ => "SRLIW"
  | .sraiw _ _ _ => "SRAIW"
  | .addw _ _ _ => "ADDW"
  | .subw _ _ _ => "SUBW"
  | .sllw _ _ _ => "SLLW"
  | .srlw _ _ _ => "SRLW"
  | .sraw _ _ _ => "SRAW"
  | .mul _ _ _ => "MUL"
  | .mulh _ _ _ => "MULH"
  | .mulhsu _ _ _ => "MULHSU"
  | .mulhu _ _ _ => "MULHU"
  | .div _ _ _ => "DIV"
  | .divu _ _ _ => "DIVU"
  | .rem _ _ _ => "REM"
  | .remu _ _ _ => "REMU"
  | .mulw _ _ _ => "MULW"
  | .divw _ _ _ => "DIVW"
  | .divuw _ _ _ => "DIVUW"
  | .remw _ _ _ => "REMW"
  | .remuw _ _ _ => "REMUW"
  | .lrW _ _ _ _ => "LR.W"
  | .scW _ _ _ _ _ => "SC.W"
  | .lrD _ _ _ _ => "LR.D"
  | .scD _ _ _ _ _ => "SC.D"
  | .amoswapW _ _ _ _ _ => "AMOSWAP.W"
  | .amoaddW _ _ _ _ _ => "AMOADD.W"
  | .amoxorW _ _ _ _ _ => "AMOXOR.W"
  | .amoandW _ _ _ _ _ => "AMOAND.W"
  | .amoorW _ _ _ _ _ => "AMOOR.W"
  | .amominW _ _ _ _ _ => "AMOMIN.W"
  | .amomaxW _ _ _ _ _ => "AMOMAX.W"
  | .amominuW _ _ _ _ _ => "AMOMINU.W"
  | .amomaxuW _ _ _ _ _ => "AMOMAXU.W"
  | .amoswapD _ _ _ _ _ => "AMOSWAP.D"
  | .amoaddD _ _ _ _ _ => "AMOADD.D"
  | .amoxorD _ _ _ _ _ => "AMOXOR.D"
  | .amoandD _ _ _ _ _ => "AMOAND.D"
  | .amoorD _ _ _ _ _ => "AMOOR.D"
  | .amominD _ _ _ _ _ => "AMOMIN.D"
  | .amomaxD _ _ _ _ _ => "AMOMAX.D"
  | .amominuD _ _ _ _ _ => "AMOMINU.D"
  | .amomaxuD _ _ _ _ _ => "AMOMAXU.D"
  | .csrrw _ _ _ => "CSRRW"
  | .csrrs _ _ _ => "CSRRS"
  | .csrrc _ _ _ => "CSRRC"
  | .csrrwi _ _ _ => "CSRRWI"
  | .csrrsi _ _ _ => "CSRRSI"
  | .csrrci _ _ _ => "CSRRCI"
  | .flw _ _ _ => "FLW"
  | .fsw _ _ _ => "FSW"
  | .fmaddS _ _ _ _ _ => "FMADD.S"
  | .fmsubS _ _ _ _ _ => "FMSUB.S"
  | .fnmsubS _ _ _ _ _ => "FNMSUB.S"
  | .fnmaddS _ _ _ _ _ => "FNMADD.S"
  | .faddS _ _ _ _ => "FADD.S"
  | .fsubS _ _ _ _ => "FSUB.S"
  | .fmulS _ _ _ _ => "FMUL.S"
  | .fdivS _ _ _ _ => "FDIV.S"
  | .fsqrtS _ _ _ => "FSQRT.S"
  | .fsgnjS _ _ _ => "FSGNJ.S"
  | .fsgnjnS _ _ _ => "FSGNJN.S"
  | .fsgnjxS _ _ _ => "FSGNJX.S"
  | .fminS _ _ _ => "FMIN.S"
  | .fmaxS _ _ _ => "FMAX.S"
  | .fcvtWS _ _ _ => "FCVT.W.S"
  | .fcvtWUS _ _ _ => "FCVT.WU.S"
  | .fcvtLS _ _ _ => "FCVT.L.S"
  | .fcvtLUS _ _ _ => "FCVT.LU.S"
  | .fmvXW _ _ => "FMV.X.W"
  | .feqS _ _ _ => "FEQ.S"
  | .fltS _ _ _ => "FLT.S"
  | .fleS _ _ _ => "FLE.S"
  | .fclassS _ _ => "FCLASS.S"
  | .fcvtSW _ _ _ => "FCVT.S.W"
  | .fcvtSWU _ _ _ => "FCVT.S.WU"
  | .fcvtSL _ _ _ => "FCVT.S.L"
  | .fcvtSLU _ _ _ => "FCVT.S.LU"
  | .fmvWX _ _ => "FMV.W.X"
  | .fld _ _ _ => "FLD"
  | .fsd _ _ _ => "FSD"
  | .fmaddD _ _ _ _ _ => "FMADD.D"
  | .fmsubD _ _ _ _ _ => "FMSUB.D"
  | .fnmsubD _ _ _ _ _ => "FNMSUB.D"
  | .fnmaddD _ _ _ _ _ => "FNMADD.D"
  | .faddD _ _ _ _ => "FADD.D"
  | .fsubD _ _ _ _ => "FSUB.D"
  | .fmulD _ _ _ _ => "FMUL.D"
  | .fdivD _ _ _ _ => "FDIV.D"
  | .fsqrtD _ _ _ => "FSQRT.D"
  | .fsgnjD _ _ _ => "FSGNJ.D"
  | .fsgnjnD _ _ _ => "FSGNJN.D"
  | .fsgnjxD _ _ _ => "FSGNJX.D"
  | .fminD _ _ _ => "FMIN.D"
  | .fmaxD _ _ _ => "FMAX.D"
  | .fcvtSD _ _ _ => "FCVT.S.D"
  | .fcvtDS _ _ _ => "FCVT.D.S"
  | .feqD _ _ _ => "FEQ.D"
  | .fltD _ _ _ => "FLT.D"
  | .fleD _ _ _ => "FLE.D"
  | .fclassD _ _ => "FCLASS.D"
  | .fcvtWD _ _ _ => "FCVT.W.D"
  | .fcvtWUD _ _ _ => "FCVT.WU.D"
  | .fcvtLD _ _ _ => "FCVT.L.D"
  | .fcvtLUD _ _ _ => "FCVT.LU.D"
  | .fmvXD _ _ => "FMV.X.D"
  | .fcvtDW _ _ _ => "FCVT.D.W"
  | .fcvtDWU _ _ _ => "FCVT.D.WU"
  | .fcvtDL _ _ _ => "FCVT.D.L"
  | .fcvtDLU _ _ _ => "FCVT.D.LU"
  | .fmvDX _ _ => "FMV.D.X"
  | .cAddi4spn _ _ => "C.ADDI4SPN"
  | .cFld _ _ _ => "C.FLD"
  | .cLw _ _ _ => "C.LW"
  | .cLd _ _ _ => "C.LD"
  | .cFsd _ _ _ => "C.FSD"
  | .cSw _ _ _ => "C.SW"
  | .cSd _ _ _ => "C.SD"
  | .cNop _ => "C.NOP"
  | .cAddi _ _ => "C.ADDI"
  | .cAddiw _ _ => "C.ADDIW"
  | .cLi _ _ => "C.LI"
  | .cAddi16sp _ => "C.ADDI16SP"
  | .cLui _ _ => "C.LUI"
  | .cSrli _ _ => "C.SRLI"
  | .cSrai _ _ => "C.SRAI"
  | .cAndi _ _ => "C.ANDI"
  | .cSub _ _ => "C.SUB"
  | .cXor _ _ => "C.XOR"
  | .cOr _ _ => "C.OR"
  | .cAnd _ _ => "C.AND"
  | .cSubw _ _ => "C.SUBW"
  | .cAddw _ _ => "C.ADDW"
  | .cJ _ => "C.J"
  | .cBeqz _ _ => "C.BEQZ"
  | .cBnez _ _ => "C.BNEZ"
  | .cSlli _ _ => "C.SLLI"
  | .cFldsp _ _ => "C.FLDSP"
  | .cLwsp _ _ => "C.LWSP"
  | .cLdsp _ _ => "C.LDSP"
  | .cJr _ => "C.JR"
  | .cMv _ _ => "C.MV"
  | .cEbreak => "C.EBREAK"
  | .cJalr _ => "C.JALR"
  | .cAdd _ _ => "C.ADD"
  | .cFsdsp _ _ => "C.FSDSP"
  | .cSwsp _ _ => "C.SWSP"
  | .cSdsp _ _ => "C.SDSP"

/-- The width of an instruction's encoding in bytes (R150). -/
def Instr.len : Instr → Nat
  | .lui .. => 4
  | .auipc .. => 4
  | .jal .. => 4
  | .jalr .. => 4
  | .beq .. => 4
  | .bne .. => 4
  | .blt .. => 4
  | .bge .. => 4
  | .bltu .. => 4
  | .bgeu .. => 4
  | .lb .. => 4
  | .lh .. => 4
  | .lw .. => 4
  | .ld .. => 4
  | .lbu .. => 4
  | .lhu .. => 4
  | .lwu .. => 4
  | .sb .. => 4
  | .sh .. => 4
  | .sw .. => 4
  | .sd .. => 4
  | .addi .. => 4
  | .slti .. => 4
  | .sltiu .. => 4
  | .xori .. => 4
  | .ori .. => 4
  | .andi .. => 4
  | .slli .. => 4
  | .srli .. => 4
  | .srai .. => 4
  | .add .. => 4
  | .sub .. => 4
  | .sll .. => 4
  | .slt .. => 4
  | .sltu .. => 4
  | .xor .. => 4
  | .srl .. => 4
  | .sra .. => 4
  | .or .. => 4
  | .and .. => 4
  | .fence .. => 4
  | .fenceI .. => 4
  | .ecall => 4
  | .ebreak => 4
  | .addiw .. => 4
  | .slliw .. => 4
  | .srliw .. => 4
  | .sraiw .. => 4
  | .addw .. => 4
  | .subw .. => 4
  | .sllw .. => 4
  | .srlw .. => 4
  | .sraw .. => 4
  | .mul .. => 4
  | .mulh .. => 4
  | .mulhsu .. => 4
  | .mulhu .. => 4
  | .div .. => 4
  | .divu .. => 4
  | .rem .. => 4
  | .remu .. => 4
  | .mulw .. => 4
  | .divw .. => 4
  | .divuw .. => 4
  | .remw .. => 4
  | .remuw .. => 4
  | .lrW .. => 4
  | .scW .. => 4
  | .lrD .. => 4
  | .scD .. => 4
  | .amoswapW .. => 4
  | .amoaddW .. => 4
  | .amoxorW .. => 4
  | .amoandW .. => 4
  | .amoorW .. => 4
  | .amominW .. => 4
  | .amomaxW .. => 4
  | .amominuW .. => 4
  | .amomaxuW .. => 4
  | .amoswapD .. => 4
  | .amoaddD .. => 4
  | .amoxorD .. => 4
  | .amoandD .. => 4
  | .amoorD .. => 4
  | .amominD .. => 4
  | .amomaxD .. => 4
  | .amominuD .. => 4
  | .amomaxuD .. => 4
  | .csrrw .. => 4
  | .csrrs .. => 4
  | .csrrc .. => 4
  | .csrrwi .. => 4
  | .csrrsi .. => 4
  | .csrrci .. => 4
  | .flw .. => 4
  | .fsw .. => 4
  | .fmaddS .. => 4
  | .fmsubS .. => 4
  | .fnmsubS .. => 4
  | .fnmaddS .. => 4
  | .faddS .. => 4
  | .fsubS .. => 4
  | .fmulS .. => 4
  | .fdivS .. => 4
  | .fsqrtS .. => 4
  | .fsgnjS .. => 4
  | .fsgnjnS .. => 4
  | .fsgnjxS .. => 4
  | .fminS .. => 4
  | .fmaxS .. => 4
  | .fcvtWS .. => 4
  | .fcvtWUS .. => 4
  | .fcvtLS .. => 4
  | .fcvtLUS .. => 4
  | .fmvXW .. => 4
  | .feqS .. => 4
  | .fltS .. => 4
  | .fleS .. => 4
  | .fclassS .. => 4
  | .fcvtSW .. => 4
  | .fcvtSWU .. => 4
  | .fcvtSL .. => 4
  | .fcvtSLU .. => 4
  | .fmvWX .. => 4
  | .fld .. => 4
  | .fsd .. => 4
  | .fmaddD .. => 4
  | .fmsubD .. => 4
  | .fnmsubD .. => 4
  | .fnmaddD .. => 4
  | .faddD .. => 4
  | .fsubD .. => 4
  | .fmulD .. => 4
  | .fdivD .. => 4
  | .fsqrtD .. => 4
  | .fsgnjD .. => 4
  | .fsgnjnD .. => 4
  | .fsgnjxD .. => 4
  | .fminD .. => 4
  | .fmaxD .. => 4
  | .fcvtSD .. => 4
  | .fcvtDS .. => 4
  | .feqD .. => 4
  | .fltD .. => 4
  | .fleD .. => 4
  | .fclassD .. => 4
  | .fcvtWD .. => 4
  | .fcvtWUD .. => 4
  | .fcvtLD .. => 4
  | .fcvtLUD .. => 4
  | .fmvXD .. => 4
  | .fcvtDW .. => 4
  | .fcvtDWU .. => 4
  | .fcvtDL .. => 4
  | .fcvtDLU .. => 4
  | .fmvDX .. => 4
  | .cAddi4spn .. => 2
  | .cFld .. => 2
  | .cLw .. => 2
  | .cLd .. => 2
  | .cFsd .. => 2
  | .cSw .. => 2
  | .cSd .. => 2
  | .cNop .. => 2
  | .cAddi .. => 2
  | .cAddiw .. => 2
  | .cLi .. => 2
  | .cAddi16sp .. => 2
  | .cLui .. => 2
  | .cSrli .. => 2
  | .cSrai .. => 2
  | .cAndi .. => 2
  | .cSub .. => 2
  | .cXor .. => 2
  | .cOr .. => 2
  | .cAnd .. => 2
  | .cSubw .. => 2
  | .cAddw .. => 2
  | .cJ .. => 2
  | .cBeqz .. => 2
  | .cBnez .. => 2
  | .cSlli .. => 2
  | .cFldsp .. => 2
  | .cLwsp .. => 2
  | .cLdsp .. => 2
  | .cJr .. => 2
  | .cMv .. => 2
  | .cEbreak => 2
  | .cJalr .. => 2
  | .cAdd .. => 2
  | .cFsdsp .. => 2
  | .cSwsp .. => 2
  | .cSdsp .. => 2

end Sys2Proof
end

