-- ==== Sys2Proof/Machine/State.lean ====
section
/-! DEFINITION. The state of one hart and the guest memory it works on (R50 to R69, R100), the stop events (R800), the
reasons a step can stop, and the state a launched hart starts in (R850). -/

namespace Sys2Proof.Machine

/-- Guest memory (R100): the bytes that differ from what an unlisted address reads as, by strictly rising address. -/
abbrev Memory := List Host.Cell

/-- The reservation of R66: the address and the number of bytes of the last LR. -/
structure Reservation where
  addr  : Word
  bytes : Nat
deriving DecidableEq, Repr, Inhabited

/-- The stop events of R800 with the information each records. -/
inductive StopEvent where
  /-- Code 1: the parcel or word that is no implemented instruction, zero-extended to 32 bits (R815). -/
  | decodeFailure (w : BitVec 32)
  /-- Code 2: a fetch at an odd pc (R59, R151). -/
  | misalignedFetch (pc : Word)
  /-- Code 3: the failing byte and the kind of access it is not mapped for (R106, R801). -/
  | memoryFault (a : Word) (k : AccessKind)
  /-- Code 4: a misaligned plain access, when MISALIGNED_PLAIN is fault (R107). -/
  | misalignedAccess (a : Word)
  /-- Code 5: a misaligned LR, SC or AMO (R108). -/
  | misalignedAtomic (a : Word)
  /-- Code 6: a DYN instruction while frm is 5, 6 or 7 (R405). -/
  | illegalRoundingMode (frm : BitVec 3)
  /-- Code 7: EBREAK or C.EBREAK (R653). -/
  | breakpoint
  /-- Code 8: ECALL, with x17 and x10 to x15 (R652). -/
  | syscall (number a0 a1 a2 a3 a4 a5 : Word)
deriving DecidableEq, Repr

/-- What the block hands the host at a stop (R15, R800): the event, the pc of the instruction and the hart. -/
structure StopRecord where
  event : StopEvent
  pc    : Word
  hart  : Nat
deriving DecidableEq, Repr

/-- Whether the hart takes steps (R850 "stopped", R805, R852): it runs, it has handed the host a stop event, or the
host has ended it at a system call, with the value x10 had at that call (R853). -/
inductive Status where
  | running
  | stopped (r : StopRecord)
  | ended (exitValue : Word)
deriving DecidableEq, Repr

/-- The machine: one hart's registers (R69), the guest memory (R100), the host's parameters (R17), and what the
host knows the hart by and has been asked so far. -/
structure State where
  /-- x0 to x31 (R50); the cell of x0 is never observed (R51). -/
  x : Vector Word 32
  /-- f0 to f31 (R55), raw 64-bit containers. -/
  f : Vector Word 32
  /-- The address of the instruction being executed (R57). -/
  pc : Word
  /-- fflags in bits 4 to 0, frm in bits 7 to 5 (R61). -/
  fcsr : BitVec 8
  /-- The reservation of LRSC_MODE = reserve (R66); `none` when none is held. -/
  resv : Option Reservation
  /-- Whether another hart has written a reserved byte since the LR (R613): set from outside the hart, read by SC. -/
  otherHartWrote : Bool
  /-- Guest memory (R100). -/
  mem : Memory
  /-- The host's parameters (R17). -/
  params : Params
  /-- Whether the hart takes steps (R805, R850, R852). -/
  status : Status
  /-- The host's name for this hart, which every stop event records (R800); no instruction reads it (R812). -/
  hart : Nat
  /-- THE MODEL'S OWN: how many system calls the host has answered, the index of the free value `Config.syscall`. -/
  hostCalls : Nat
deriving DecidableEq, Repr

/-- Why a step answers no next state. -/
inductive Fault where
  /-- `step` on a hart that stopped at an event other than Syscall (events 1 to 7 of R800): it takes no further step
  (R805). Safe: the spec has the hart stop for good. -/
  | stoppedForGood (r : StopRecord)
  /-- `step` on a hart the host has ended (R852): it takes no further step. Safe. -/
  | hartEnded (exitValue : Word)
deriving DecidableEq, Repr

/-- Why an instruction has no meaning. -/
inductive Refusal where
  /-- An arm of `exec` that has no meaning yet, by its mnemonic. Safe: the step stops. -/
  | notModelled (mnemonic : String)
deriving DecidableEq, Repr

/-- The host's parameters at launch: the defaults of R17, and every byte mapped for every access (the host's choice,
left OPEN by R17). DESIGN CHOICE, notes/assumptions/6.md. -/
def Params.launch : Params where
  mapping         := [{ base := 0, size := 2 ^ 64, read := true, write := true, fetch := true }]
  misalignedPlain := .fault
  lrscMode        := .plain
  withheld        := []

/-- The state after launch (R850): fcsr = 0, no reservation, running, memory with nothing listed. The registers and the
pc, for which the spec gives no value, are DESIGN CHOICE values, notes/assumptions/3.md. -/
def State.reset : State where
  x              := Vector.replicate 32 0#64
  f              := Vector.replicate 32 0#64
  pc             := 0x1000#64
  fcsr           := 0#8
  resv           := none
  otherHartWrote := false
  mem            := []
  params         := Params.launch
  status         := .running
  hart           := 0
  hostCalls      := 0

end Sys2Proof.Machine
end

