-- ==== Sys2Proof/Machine/Memory.lean ====
section
/-! DEFINITION. Guest memory as bytes by address (R100), its one canonical form, little-endian accesses of n bytes
(R102 to R104), and the predicate MAPPED (R106). -/

namespace Sys2Proof.Machine

/-- What an address that memory does not list reads as. DESIGN CHOICE, notes/assumptions/5.md: the host supplies the
initial contents (R122), and the spec gives none. -/
def unlistedByte : Byte := 0x00#8

/-- The byte at an address. -/
def byteAt : Memory → Nat → Byte
  | [], _ => unlistedByte
  | (k, b) :: m, a => if k = a then b else byteAt m a

/-- Memory with the byte at `a` set to `v`, in canonical form: rising addresses, no byte equal to `unlistedByte`. -/
def setByte : Memory → Nat → Byte → Memory
  | [], a, v => if v = unlistedByte then [] else [(a, v)]
  | (k, b) :: m, a, v =>
    if a < k then
      if v = unlistedByte then (k, b) :: m else (a, v) :: (k, b) :: m
    else if a = k then
      if v = unlistedByte then m else (a, v) :: m
    else (k, b) :: setByte m a v

/-- Every listed address is above `a`. -/
def Memory.above (a : Nat) : Memory → Bool
  | [] => true
  | (k, _) :: _ => decide (a < k)

/-- The canonical form: addresses of the 64-bit space (R100), strictly rising, none listed with what an unlisted
address reads as. -/
def Memory.wf : Memory → Bool
  | [] => true
  | (a, v) :: m => decide (a < 2 ^ 64) && v != unlistedByte && Memory.above a m && Memory.wf m

/-- `MemRead(a, n)` (R102), zero-extended to 64 bits; byte addresses wrap modulo 2^64 (R104). -/
def memRead (m : Memory) (a : Word) : Nat → Word
  | 0 => 0#64
  | n + 1 => (byteAt m a.toNat).setWidth 64 ||| (memRead m (a + 1#64) n <<< 8)

/-- `MemWrite(a, n, v)` (R102): the low 8n bits of `v`, the least significant byte at `a`. -/
def memWrite (m : Memory) (a : Word) : Nat → Word → Memory
  | 0, _ => m
  | n + 1, v => memWrite (setByte m a.toNat (v.setWidth 8)) (a + 1#64) n (v >>> 8)

/-- Writes of single bytes in order: what the host stores while it performs a system call (R655 step 3). -/
def writeBytes (m : Memory) : List (Word × Byte) → Memory
  | [] => m
  | (a, v) :: ws => writeBytes (setByte m a.toNat v) ws

/-- The addresses of an access of n bytes at `a` (R103, R104). -/
def accessBytes (a : Word) : Nat → List Word
  | 0 => []
  | n + 1 => a :: accessBytes (a + 1#64) n

/-- The kinds of access a region is mapped for. -/
def Region.allows (r : Region) : AccessKind → Bool
  | .read => r.read
  | .write => r.write
  | .fetch => r.fetch

/-- `MAPPED(a, k)` (R101, R106): some region holds the byte and allows the kind. -/
def mapped (p : Params) (a : Word) (k : AccessKind) : Bool :=
  p.mapping.any fun r => decide (r.base ≤ a.toNat) && decide (a.toNat < r.base + r.size) && Region.allows r k

/-- The first of the kinds an access needs that byte `a` is not mapped for. -/
def missingKind (p : Params) (kinds : List AccessKind) (a : Word) : Option AccessKind :=
  kinds.find? fun k => !mapped p a k

/-- The bytes of an access that are not mapped for every kind it needs. -/
def failingBytes (p : Params) (kinds : List AccessKind) (a : Word) (n : Nat) : List Word :=
  (accessBytes a n).filter fun b => (missingKind p kinds b).isSome

/-- The lowest address of a list: the byte a MemoryFault reports (R106, R801). -/
def lowest : List Word → Option Word
  | [] => none
  | a :: as =>
    match lowest as with
    | none => some a
    | some b => if a ≤ b then some a else some b

/-- The mapping check of R106 on an access of n bytes at `a` that needs `kinds`: the MemoryFault it raises, if any, at
the lowest failing byte, with the first kind that fails there (R801). -/
def checkMapped (p : Params) (kinds : List AccessKind) (a : Word) (n : Nat) : Option StopEvent :=
  match lowest (failingBytes p kinds a n) with
  | none => none
  | some b => (missingKind p kinds b).map fun k => .memoryFault b k

end Sys2Proof.Machine
end

