-- ==== Sys2Proof/Machine/Flags.lean ====
section
/-! DEFINITION. The floating-point exception flags and the fields of fcsr (R61 to R65, R430). -/

namespace Sys2Proof.Machine

/-- A set of exception flags, laid out as `fflags` (R61). -/
abbrev FlagSet := BitVec 5

/-- No flag. -/
def noFlags : FlagSet := 0b00000#5

/-- Inexact, bit 0 (R61). -/
def flagNX : FlagSet := 0b00001#5

/-- Underflow, bit 1 (R61). -/
def flagUF : FlagSet := 0b00010#5

/-- Overflow, bit 2 (R61). -/
def flagOF : FlagSet := 0b00100#5

/-- Divide by zero, bit 3 (R61). -/
def flagDZ : FlagSet := 0b01000#5

/-- Invalid operation, bit 4 (R61). -/
def flagNV : FlagSet := 0b10000#5

/-- `fl` if the condition holds, else no flag. -/
def flagIf (c : Bool) (fl : FlagSet) : FlagSet := if c then fl else noFlags

/-- `fflags`, fcsr[4:0] (R61). -/
def fflagsOf (fcsr : BitVec 8) : FlagSet := fcsr.extractLsb' 0 5

/-- `frm`, fcsr[7:5] (R61). -/
def frmOf (fcsr : BitVec 8) : BitVec 3 := fcsr.extractLsb' 5 3

/-- fcsr from its two fields (R61). -/
def fcsrOf (frm : BitVec 3) (fflags : FlagSet) : BitVec 8 := frm ++ fflags

/-- `fflags |= fl` (R430): flags accrue, frm keeps its value. -/
def accrueFlags (fcsr : BitVec 8) (fl : FlagSet) : BitVec 8 := fcsrOf (frmOf fcsr) (fflagsOf fcsr ||| fl)

/-- The read column of R65: the CSR's value, zero-extended. -/
def csrRead (fcsr : BitVec 8) : Csr → Word
  | .fflags => (fflagsOf fcsr).setWidth 64
  | .frm => (frmOf fcsr).setWidth 64
  | .fcsr => fcsr.setWidth 64

/-- The write column of R65: the low bits of the value, any of them legal (R658). -/
def csrWrite (fcsr : BitVec 8) (v : Word) : Csr → BitVec 8
  | .fflags => fcsrOf (frmOf fcsr) (v.setWidth 5)
  | .frm => fcsrOf (v.setWidth 3) (fflagsOf fcsr)
  | .fcsr => v.setWidth 8

end Sys2Proof.Machine
end

