-- ==== Sys2Proof/Machine/Operands.lean ====
section
/-! DEFINITION. The forms an operand takes: immediates and their extensions (R20, R160 to R182), the 32-bit views
(R302), shift amounts (R301), NaN-boxing (R410, R411), and the effective rounding mode (R404, R405). -/

namespace Sys2Proof.Machine

/-- `sext_12` of an I- or S-immediate (R161, R162). -/
def immSigned (imm : BitVec 12) : Word := imm.signExtend 64

/-- The U-immediate `sext_32({imm20, 0})` (R163). -/
def immUpper (imm : BitVec 20) : Word := (imm ++ 0#12).signExtend 64

/-- A signed offset of a branch or jump, extended to 64 bits (R164, R165, R181, R182). -/
def offsetSigned {n : Nat} (offset : BitVec n) : Word := offset.signExtend 64

/-- An unsigned compressed offset, extended to 64 bits (R170 to R180). -/
def offsetUnsigned {n : Nat} (offset : BitVec n) : Word := offset.setWidth 64

/-- `sext_32`: a 32-bit result written to a 64-bit register (R302). -/
def sext32 (v : BitVec 32) : Word := v.signExtend 64

/-- `trunc_32`: the 32-bit view of a register (R302). -/
def low32 (v : Word) : BitVec 32 := v.setWidth 32

/-- The n low bytes of a value, sign-extended (R571, R602). -/
def sextBytes (n : Nat) (v : Word) : Word := (v.setWidth (8 * n)).signExtend 64

/-- The n low bytes of a value, zero-extended (R571). -/
def zextBytes (n : Nat) (v : Word) : Word := (v.setWidth (8 * n)).setWidth 64

/-- The 6-bit amount of a 64-bit register shift (R301). -/
def shiftAmount (v : Word) : Nat := (v.extractLsb' 0 6).toNat

/-- The 5-bit amount of a W register shift (R301). -/
def shiftAmountW (v : Word) : Nat := (v.extractLsb' 0 5).toNat

/-- A truth value as a register value, 1 or 0 (R308, R428). -/
def boolWord (b : Bool) : Word := if b then 1#64 else 0#64

/-- The canonical quiet NaN of the S format (R409). -/
def canonicalNaNS : BitVec 32 := 0x7FC00000#32

/-- `boxS` (R410). -/
def boxS (v : BitVec 32) : Word := 0xFFFFFFFF#32 ++ v

/-- `unboxS` (R411): the low word of a properly boxed container, else the canonical NaN. -/
def unboxS (v : Word) : BitVec 32 :=
  if v.extractLsb' 32 32 = 0xFFFFFFFF#32 then v.setWidth 32 else canonicalNaNS

/-- The five rounding modes (R62, R406). -/
inductive RoundingMode where
  | rne
  | rtz
  | rdn
  | rup
  | rmm
deriving DecidableEq, Repr

/-- The mode a value of frm selects; 5, 6 and 7 select none (R62). -/
def modeOfFrm (frm : BitVec 3) : Option RoundingMode :=
  match frm with
  | 0b000#3 => some .rne
  | 0b001#3 => some .rtz
  | 0b010#3 => some .rdn
  | 0b011#3 => some .rup
  | 0b100#3 => some .rmm
  | _ => none

/-- The effective rounding mode `RM(rm)` (R404); `none` where DYN meets an frm of 5, 6 or 7 (R405). -/
def effectiveMode (rm : Rm) (fcsr : BitVec 8) : Option RoundingMode :=
  match rm with
  | .rne => some .rne
  | .rtz => some .rtz
  | .rdn => some .rdn
  | .rup => some .rup
  | .rmm => some .rmm
  | .dyn => modeOfFrm (frmOf fcsr)

end Sys2Proof.Machine
end

