-- ==== Sys2Proof/Machine/Ops.lean ====
section
/-! DEFINITION. The named operations every meaning is written in: the register ports (R11, R51), taking a stop event
and the host's return from a system call (R803, R655), the end of a step (R58), and the load-store unit (R14). -/

namespace Sys2Proof.Machine

/-- The one outcome type of a step. -/
abbrev Result := Host.Outcome State Fault Refusal

/-! ## Register ports (R11) -/

/-- `RX(i)`: an integer register; x0 reads zero (R51). -/
def State.rx (s : State) (i : XReg) : Word := if i = 0#5 then 0#64 else s.x[i.toNat]'i.isLt

/-- `WX(i, v)`: a write to x0 is discarded (R51). -/
def State.wx (s : State) (i : XReg) (v : Word) : State :=
  { s with x := if i = 0#5 then s.x else s.x.set i.toNat v i.isLt }

/-- `RF(i)`: the raw 64-bit container (R55). -/
def State.rf (s : State) (i : FReg) : Word := s.f[i.toNat]'i.isLt

/-- `WF(i, v)`: a raw write of the container; no f register is hard-wired (R55). -/
def State.wf (s : State) (i : FReg) (v : Word) : State := { s with f := s.f.set i.toNat v i.isLt }

/-- An S-format operand, unboxed (R412). -/
def State.rfS (s : State) (i : FReg) : BitVec 32 := unboxS (s.rf i)

/-- `fflags |= fl` (R64, R430). -/
def State.accrue (s : State) (fl : FlagSet) : State := { s with fcsr := accrueFlags s.fcsr fl }

/-- The state with fcsr replaced (R658). -/
def State.withFcsr (s : State) (v : BitVec 8) : State := { s with fcsr := v }

/-- The state with memory replaced. -/
def State.withMem (s : State) (m : Memory) : State := { s with mem := m }

/-- The state with pc replaced (R22). -/
def State.withPc (s : State) (t : Word) : State := { s with pc := t }

/-- The address of the next instruction in sequence, modulo 2^64 (R22, R58); it is also the link value (R552). -/
def State.nextPc (s : State) (len : Nat) : Word := s.pc + BitVec.ofNat 64 len

/-! ## Stop events and the host (R803, R804, R655) -/

/-- Taking a stop event (R24, R803, R804): the hart stops with the event, its pc and its name recorded for the host;
no register, pc, fcsr, reservation or memory byte changes, and control goes nowhere inside the guest. -/
def raise (e : StopEvent) (s : State) : Result :=
  .next { s with status := .stopped { event := e, pc := s.pc, hart := s.hart } }

/-- The register file of an ended hart is discarded (R852): nothing of what it held is left. State is plain data and has no
absent register; the zeros that stand in the cells are no values of the hart, and no step reads them.
notes/assumptions/10.md. -/
def State.discardRegisters (s : State) : State :=
  { s with
    x := Vector.replicate 32 0#64
    f := Vector.replicate 32 0#64
    pc := 0#64
    fcsr := 0#8
    resv := none
    otherHartWrote := false }

/-- The host's return from a system call (R655, R656): its writes to guest memory, its mapping (R101), the result in
x10, pc past the ECALL, and no reservation in reserve mode (R611); or the end of the thread, whose registers are
discarded and whose memory stays (R852), with x10 at the call as its exit value (R853). -/
def hostReturn (reply : SyscallReply) (s : State) : State :=
  match reply with
  | .resume result writes mapping =>
    let t := s.wx 10#5 result
    { t with
      mem := writeBytes s.mem writes
      params := { s.params with mapping := mapping.getD s.params.mapping }
      pc := s.nextPc 4
      resv := if s.params.lrscMode = .reserve then none else s.resv
      status := .running
      hostCalls := s.hostCalls + 1 }
  | .exit => { s.discardRegisters with status := .ended (s.rx 10#5), hostCalls := s.hostCalls + 1 }

/-- What the host sees of the stopped hart (R655 step 2). -/
def State.syscallView (s : State) : SyscallView where
  hart := s.hart
  x := s.x
  f := s.f
  pc := s.pc
  fcsr := s.fcsr
  resv := s.resv.map fun r => (r.addr, r.bytes)
  mem := s.mem
  mapping := s.params.mapping

/-- What becomes of a hart that has stopped with record `r`: the host answers a system call with the free value
`Config.syscall` and the hart goes on or ends; after every other stop event it is stopped for good (R805). -/
def afterStop (r : StopRecord) (s : State) : Result :=
  match r.event with
  | .syscall .. => .next (hostReturn (Config.syscall s.hostCalls s.syscallView) s)
  | .decodeFailure _ => .fault (.stoppedForGood r)
  | .misalignedFetch _ => .fault (.stoppedForGood r)
  | .memoryFault _ _ => .fault (.stoppedForGood r)
  | .misalignedAccess _ => .fault (.stoppedForGood r)
  | .misalignedAtomic _ => .fault (.stoppedForGood r)
  | .illegalRoundingMode _ => .fault (.stoppedForGood r)
  | .breakpoint => .fault (.stoppedForGood r)

/-! ## The end of a step (R58) -/

/-- The instruction of `len` bytes completes and falls through. -/
def retire (len : Nat) (s : State) : Result := .next (s.withPc (s.nextPc len))

/-- It completes with an integer result. -/
def retireX (len : Nat) (rd : XReg) (v : Word) (s : State) : Result := retire len (s.wx rd v)

/-- It completes with a result in an f register, raw. -/
def retireF (len : Nat) (frd : FReg) (v : Word) (s : State) : Result := retire len (s.wf frd v)

/-- It completes with an integer result and accrued flags (R430). -/
def retireXFlags (rd : XReg) (r : Word × FlagSet) (s : State) : Result := retire 4 ((s.wx rd r.1).accrue r.2)

/-- It completes with an S result, boxed (R413), and accrued flags (R430). -/
def retireS (frd : FReg) (r : BitVec 32 × FlagSet) (s : State) : Result := retire 4 ((s.wf frd (boxS r.1)).accrue r.2)

/-- It completes with a D result (R414) and accrued flags (R430). -/
def retireD (frd : FReg) (r : Word × FlagSet) (s : State) : Result := retire 4 ((s.wf frd r.1).accrue r.2)

/-- The instruction with rounding mode field `rm` goes on under the effective mode, or stops with IllegalRoundingMode
before anything else happens (R404, R405). -/
def withMode (rm : Rm) (s : State) (k : RoundingMode → Result) : Result :=
  match effectiveMode rm s.fcsr with
  | some m => k m
  | none => raise (.illegalRoundingMode (frmOf s.fcsr)) s

/-! ## The load-store unit (R14, R105 to R108, R600 to R613) -/

/-- The kinds of atomic read-modify-write (R14, R601). -/
inductive AmoKind where
  | swap
  | add
  | xor
  | and
  | or
  | min
  | max
  | minu
  | maxu
deriving DecidableEq, Repr

/-- A request to the load-store unit (R14): n is the number of bytes. -/
inductive LsuReq where
  | load (a : Word) (n : Nat)
  | store (a : Word) (n : Nat) (v : Word)
  | loadReserved (a : Word) (n : Nat) (aq rl : Bool)
  | storeConditional (a : Word) (n : Nat) (v : Word) (aq rl : Bool)
  | amo (kind : AmoKind) (a : Word) (n : Nat) (v : Word) (aq rl : Bool)
deriving DecidableEq, Repr

/-- The admission of a plain access (R105): alignment under MISALIGNED_PLAIN (R107), then mapping (R106). Under `split`
every byte is checked before any is accessed (R801). -/
def admitPlain (kinds : List AccessKind) (a : Word) (n : Nat) (s : State) : Option StopEvent :=
  if a.toNat % n ≠ 0 ∧ s.params.misalignedPlain = .fault then some (.misalignedAccess a)
  else checkMapped s.params kinds a n

/-- The admission of an atomic access (R105): alignment always (R108), then mapping (R106). -/
def admitAtomic (kinds : List AccessKind) (a : Word) (n : Nat) (s : State) : Option StopEvent :=
  if a.toNat % n ≠ 0 then some (.misalignedAtomic a)
  else checkMapped s.params kinds a n

/-- The admission of a request: LR reads, SC writes, an AMO reads and writes (R106, R600). -/
def admission (q : LsuReq) (s : State) : Option StopEvent :=
  match q with
  | .load a n => admitPlain [.read] a n s
  | .store a n _ => admitPlain [.write] a n s
  | .loadReserved a n _ _ => admitAtomic [.read] a n s
  | .storeConditional a n _ _ _ => admitAtomic [.write] a n s
  | .amo _ a n _ _ _ => admitAtomic [.read, .write] a n s

/-- `kind(old, v)` on n bytes (R601, R602). -/
def amoResult (kind : AmoKind) (n : Nat) (old v : Word) : Word :=
  match kind with
  | .swap => zextBytes n v
  | .add => zextBytes n (old + v)
  | .xor => zextBytes n (old ^^^ v)
  | .and => zextBytes n (old &&& v)
  | .or => zextBytes n (old ||| v)
  | .min => if (sextBytes n old).sle (sextBytes n v) then zextBytes n old else zextBytes n v
  | .max => if (sextBytes n v).sle (sextBytes n old) then zextBytes n old else zextBytes n v
  | .minu => if (zextBytes n old).ule (zextBytes n v) then zextBytes n old else zextBytes n v
  | .maxu => if (zextBytes n v).ule (zextBytes n old) then zextBytes n old else zextBytes n v

/-- LR takes the reservation in reserve mode (R612), and none exists in plain mode (R610). A write of another hart before
the LR no longer counts (R613). -/
def State.reserve (s : State) (a : Word) (n : Nat) : State :=
  { s with
    resv := if s.params.lrscMode = .reserve then some { addr := a, bytes := n } else s.resv
    otherHartWrote := if s.params.lrscMode = .reserve then false else s.otherHartWrote }

/-- Whether an SC of n bytes at `a` succeeds: always in plain mode (R610); in reserve mode with a matching reservation
and no write of another hart to its bytes (R613). -/
def State.scSucceeds (s : State) (a : Word) (n : Nat) : Bool :=
  match s.params.lrscMode with
  | .plain => true
  | .reserve => decide (s.resv = some { addr := a, bytes := n }) && !s.otherHartWrote

/-- SC clears the reservation in reserve mode, whether it succeeds or fails (R611). -/
def State.unreserve (s : State) : State :=
  { s with resv := if s.params.lrscMode = .reserve then none else s.resv }

/-- An admitted request performed: the response data (R14; 0 or 1 for an SC, R613) and the state after it. -/
def perform (q : LsuReq) (s : State) : Word × State :=
  match q with
  | .load a n => (memRead s.mem a n, s)
  | .store a n v => (0#64, s.withMem (memWrite s.mem a n v))
  | .loadReserved a n _ _ => (memRead s.mem a n, s.reserve a n)
  | .storeConditional a n v _ _ =>
    if s.scSucceeds a n then (0#64, s.unreserve.withMem (memWrite s.mem a n v))
    else (1#64, s.unreserve)
  | .amo kind a n v _ _ =>
    (memRead s.mem a n, s.withMem (memWrite s.mem a n (amoResult kind n (memRead s.mem a n) v)))

/-- The load-store unit: a request that is not admitted stops the hart with nothing performed (R105); else the
instruction goes on with the response. -/
def access (q : LsuReq) (s : State) (k : Word → State → Result) : Result :=
  match admission q s with
  | some e => raise e s
  | none => k (perform q s).1 (perform q s).2

/-- A load into an integer register (R571, R573): `ext` extends the loaded bytes. -/
def loadX (len : Nat) (rd : XReg) (a : Word) (n : Nat) (ext : Word → Word) (s : State) : Result :=
  access (.load a n) s fun v t => retireX len rd (ext v) t

/-- A load into an f register (R437): `box` is the container of the loaded bytes. -/
def loadF (len : Nat) (frd : FReg) (a : Word) (n : Nat) (box : Word → Word) (s : State) : Result :=
  access (.load a n) s fun v t => retireF len frd (box v) t

/-- A store of the low n bytes of a value (R437, R572). -/
def storeBytes (len : Nat) (a : Word) (n : Nat) (v : Word) (s : State) : Result :=
  access (.store a n v) s fun _ t => retire len t

/-- The effective address `x[rs1] + sext_12(imm)` (R570). -/
def State.addr (s : State) (rs1 : XReg) (imm : BitVec 12) : Word := s.rx rs1 + immSigned imm

/-- The effective address of a compressed form, `x[r] + zext(uimm)` (R700, R705 to R741). -/
def State.addrC {n : Nat} (s : State) (r : XReg) (uimm : BitVec n) : Word := s.rx r + offsetUnsigned uimm

end Sys2Proof.Machine
end

