-- ==== Sys2Proof/Machine/Atomic.lean ====
section
/-! DEFINITION. Load-reserved, store-conditional and the atomic read-modify-writes (R600 to R637). The address is
`x[rs1]`; both sources are read before rd is written (R605); aq and rl order the access (R603, Machine/Events.lean). -/

namespace Sys2Proof.Machine

/-- LR of n bytes (R610, R612). -/
def loadReserved (n : Nat) (rd rs1 : XReg) (aq rl : Bool) (s : State) : Result :=
  access (.loadReserved (s.rx rs1) n aq rl) s fun v t => retireX 4 rd (sextBytes n v) t

/-- SC of n bytes (R610, R613): rd gets 0 on success and 1 on failure. -/
def storeConditional (n : Nat) (rd rs1 rs2 : XReg) (aq rl : Bool) (s : State) : Result :=
  access (.storeConditional (s.rx rs1) n (s.rx rs2) aq rl) s fun v t => retireX 4 rd v t

/-- An AMO of n bytes (R601, R602): rd gets the old value, sign-extended. -/
def readModifyWrite (kind : AmoKind) (n : Nat) (rd rs1 rs2 : XReg) (aq rl : Bool) (s : State) : Result :=
  access (.amo kind (s.rx rs1) n (s.rx rs2) aq rl) s fun v t => retireX 4 rd (sextBytes n v) t

/-- LR.W (R615). -/
def execLrW (rd rs1 : XReg) (aq rl : Bool) (s : State) : Result :=
  loadReserved 4 rd rs1 aq rl s

/-- SC.W (R616). -/
def execScW (rd rs1 rs2 : XReg) (aq rl : Bool) (s : State) : Result :=
  storeConditional 4 rd rs1 rs2 aq rl s

/-- LR.D (R617). -/
def execLrD (rd rs1 : XReg) (aq rl : Bool) (s : State) : Result :=
  loadReserved 8 rd rs1 aq rl s

/-- SC.D (R618). -/
def execScD (rd rs1 rs2 : XReg) (aq rl : Bool) (s : State) : Result :=
  storeConditional 8 rd rs1 rs2 aq rl s

/-- AMOSWAP.W (R620). -/
def execAmoswapW (rd rs1 rs2 : XReg) (aq rl : Bool) (s : State) : Result :=
  readModifyWrite .swap 4 rd rs1 rs2 aq rl s

/-- AMOADD.W (R621). -/
def execAmoaddW (rd rs1 rs2 : XReg) (aq rl : Bool) (s : State) : Result :=
  readModifyWrite .add 4 rd rs1 rs2 aq rl s

/-- AMOXOR.W (R622). -/
def execAmoxorW (rd rs1 rs2 : XReg) (aq rl : Bool) (s : State) : Result :=
  readModifyWrite .xor 4 rd rs1 rs2 aq rl s

/-- AMOAND.W (R623). -/
def execAmoandW (rd rs1 rs2 : XReg) (aq rl : Bool) (s : State) : Result :=
  readModifyWrite .and 4 rd rs1 rs2 aq rl s

/-- AMOOR.W (R624). -/
def execAmoorW (rd rs1 rs2 : XReg) (aq rl : Bool) (s : State) : Result :=
  readModifyWrite .or 4 rd rs1 rs2 aq rl s

/-- AMOMIN.W (R625). -/
def execAmominW (rd rs1 rs2 : XReg) (aq rl : Bool) (s : State) : Result :=
  readModifyWrite .min 4 rd rs1 rs2 aq rl s

/-- AMOMAX.W (R626). -/
def execAmomaxW (rd rs1 rs2 : XReg) (aq rl : Bool) (s : State) : Result :=
  readModifyWrite .max 4 rd rs1 rs2 aq rl s

/-- AMOMINU.W (R627). -/
def execAmominuW (rd rs1 rs2 : XReg) (aq rl : Bool) (s : State) : Result :=
  readModifyWrite .minu 4 rd rs1 rs2 aq rl s

/-- AMOMAXU.W (R628). -/
def execAmomaxuW (rd rs1 rs2 : XReg) (aq rl : Bool) (s : State) : Result :=
  readModifyWrite .maxu 4 rd rs1 rs2 aq rl s

/-- AMOSWAP.D (R629). -/
def execAmoswapD (rd rs1 rs2 : XReg) (aq rl : Bool) (s : State) : Result :=
  readModifyWrite .swap 8 rd rs1 rs2 aq rl s

/-- AMOADD.D (R630). -/
def execAmoaddD (rd rs1 rs2 : XReg) (aq rl : Bool) (s : State) : Result :=
  readModifyWrite .add 8 rd rs1 rs2 aq rl s

/-- AMOXOR.D (R631). -/
def execAmoxorD (rd rs1 rs2 : XReg) (aq rl : Bool) (s : State) : Result :=
  readModifyWrite .xor 8 rd rs1 rs2 aq rl s

/-- AMOAND.D (R632). -/
def execAmoandD (rd rs1 rs2 : XReg) (aq rl : Bool) (s : State) : Result :=
  readModifyWrite .and 8 rd rs1 rs2 aq rl s

/-- AMOOR.D (R633). -/
def execAmoorD (rd rs1 rs2 : XReg) (aq rl : Bool) (s : State) : Result :=
  readModifyWrite .or 8 rd rs1 rs2 aq rl s

/-- AMOMIN.D (R634). -/
def execAmominD (rd rs1 rs2 : XReg) (aq rl : Bool) (s : State) : Result :=
  readModifyWrite .min 8 rd rs1 rs2 aq rl s

/-- AMOMAX.D (R635). -/
def execAmomaxD (rd rs1 rs2 : XReg) (aq rl : Bool) (s : State) : Result :=
  readModifyWrite .max 8 rd rs1 rs2 aq rl s

/-- AMOMINU.D (R636). -/
def execAmominuD (rd rs1 rs2 : XReg) (aq rl : Bool) (s : State) : Result :=
  readModifyWrite .minu 8 rd rs1 rs2 aq rl s

/-- AMOMAXU.D (R637). -/
def execAmomaxuD (rd rs1 rs2 : XReg) (aq rl : Bool) (s : State) : Result :=
  readModifyWrite .maxu 8 rd rs1 rs2 aq rl s

end Sys2Proof.Machine
end

