-- ==== Sys2Proof/Machine/Control.lean ====
section
/-! DEFINITION. Jumps and branches (R550 to R563): no delay slot (R553), no event of their own (R554). -/

namespace Sys2Proof.Machine

/-- A jump with link (R552, R556): the link is the address after this instruction, written after every source is read. -/
def jumpLink (len : Nat) (rd : XReg) (target : Word) (s : State) : Result :=
  .next ((s.wx rd (s.nextPc len)).withPc target)

/-- A register-relative target, bit 0 cleared (R551). -/
def indirectTarget (base off : Word) : Word := (base + off) &&& ~~~1#64

/-- A conditional branch (R550): to pc + offset when taken, else past this instruction. -/
def branch (len : Nat) (taken : Bool) (off : Word) (s : State) : Result :=
  .next (s.withPc (if taken then s.pc + off else s.nextPc len))

/-- JAL (R556). -/
def execJal (rd : XReg) (offset : BitVec 21) (s : State) : Result := jumpLink 4 rd (s.pc + offsetSigned offset) s

/-- JALR (R557): rs1 is read before rd is written (R552). -/
def execJalr (rd rs1 : XReg) (imm : BitVec 12) (s : State) : Result :=
  jumpLink 4 rd (indirectTarget (s.rx rs1) (immSigned imm)) s

/-- BEQ (R558). -/
def execBeq (rs1 rs2 : XReg) (offset : BitVec 13) (s : State) : Result :=
  branch 4 (s.rx rs1 == s.rx rs2) (offsetSigned offset) s

/-- BNE (R559). -/
def execBne (rs1 rs2 : XReg) (offset : BitVec 13) (s : State) : Result :=
  branch 4 (s.rx rs1 != s.rx rs2) (offsetSigned offset) s

/-- BLT (R560). -/
def execBlt (rs1 rs2 : XReg) (offset : BitVec 13) (s : State) : Result :=
  branch 4 ((s.rx rs1).slt (s.rx rs2)) (offsetSigned offset) s

/-- BGE (R561). -/
def execBge (rs1 rs2 : XReg) (offset : BitVec 13) (s : State) : Result :=
  branch 4 ((s.rx rs2).sle (s.rx rs1)) (offsetSigned offset) s

/-- BLTU (R562). -/
def execBltu (rs1 rs2 : XReg) (offset : BitVec 13) (s : State) : Result :=
  branch 4 ((s.rx rs1).ult (s.rx rs2)) (offsetSigned offset) s

/-- BGEU (R563). -/
def execBgeu (rs1 rs2 : XReg) (offset : BitVec 13) (s : State) : Result :=
  branch 4 ((s.rx rs2).ule (s.rx rs1)) (offsetSigned offset) s

end Sys2Proof.Machine
end

