-- ==== Sys2Proof/Machine/Integer.lean ====
section
/-! DEFINITION. The integer ALU (R300 to R334): upper immediates, register-immediate and register-register operations
and their 32-bit views. No flag, no memory, no stop event (R304); x0 discards (R303). -/

namespace Sys2Proof.Machine

/-- A register-immediate operation on 64 bits. -/
def aluImm (len : Nat) (op : Word → Word → Word) (rd rs1 : XReg) (v : Word) (s : State) : Result :=
  retireX len rd (op (s.rx rs1) v) s

/-- A register-register operation on 64 bits. -/
def aluReg (len : Nat) (op : Word → Word → Word) (rd rs1 rs2 : XReg) (s : State) : Result :=
  retireX len rd (op (s.rx rs1) (s.rx rs2)) s

/-- Signed less-than as a value (R308, R319). -/
def setLess (a b : Word) : Word := boolWord (a.slt b)

/-- Unsigned less-than as a value (R309, R320). -/
def setLessU (a b : Word) : Word := boolWord (a.ult b)

/-- A 32-bit operation on 64-bit operands, its result sign-extended (R302). -/
def viewW (op : BitVec 32 → BitVec 32 → BitVec 32) (a b : Word) : Word := sext32 (op (low32 a) (low32 b))

/-- Logical left shift by the low 6 bits (R301, R318). -/
def shiftLeft (a b : Word) : Word := a <<< shiftAmount b

/-- Logical right shift by the low 6 bits (R301, R322). -/
def shiftRight (a b : Word) : Word := a >>> shiftAmount b

/-- Arithmetic right shift by the low 6 bits (R301, R323). -/
def shiftRightArith (a b : Word) : Word := a.sshiftRight (shiftAmount b)

/-- 32-bit left shift by the low 5 bits (R301, R332). -/
def shiftLeftW (a b : Word) : Word := sext32 (low32 a <<< shiftAmountW b)

/-- 32-bit logical right shift by the low 5 bits (R301, R333). -/
def shiftRightW (a b : Word) : Word := sext32 (low32 a >>> shiftAmountW b)

/-- 32-bit arithmetic right shift by the low 5 bits (R301, R334). -/
def shiftRightArithW (a b : Word) : Word := sext32 ((low32 a).sshiftRight (shiftAmountW b))

/-- LUI (R305). -/
def execLui (rd : XReg) (imm : BitVec 20) (s : State) : Result := retireX 4 rd (immUpper imm) s

/-- AUIPC (R306): pc is this instruction's address (R57). -/
def execAuipc (rd : XReg) (imm : BitVec 20) (s : State) : Result := retireX 4 rd (s.pc + immUpper imm) s

/-- ADDI (R307). -/
def execAddi (rd rs1 : XReg) (imm : BitVec 12) (s : State) : Result := aluImm 4 (· + ·) rd rs1 (immSigned imm) s

/-- SLTI (R308). -/
def execSlti (rd rs1 : XReg) (imm : BitVec 12) (s : State) : Result := aluImm 4 setLess rd rs1 (immSigned imm) s

/-- SLTIU (R309): the sign-extended immediate compared as unsigned. -/
def execSltiu (rd rs1 : XReg) (imm : BitVec 12) (s : State) : Result := aluImm 4 setLessU rd rs1 (immSigned imm) s

/-- XORI (R310). -/
def execXori (rd rs1 : XReg) (imm : BitVec 12) (s : State) : Result := aluImm 4 (· ^^^ ·) rd rs1 (immSigned imm) s

/-- ORI (R311). -/
def execOri (rd rs1 : XReg) (imm : BitVec 12) (s : State) : Result := aluImm 4 (· ||| ·) rd rs1 (immSigned imm) s

/-- ANDI (R312). -/
def execAndi (rd rs1 : XReg) (imm : BitVec 12) (s : State) : Result := aluImm 4 (· &&& ·) rd rs1 (immSigned imm) s

/-- SLLI (R313). -/
def execSlli (rd rs1 : XReg) (shamt : BitVec 6) (s : State) : Result :=
  aluImm 4 shiftLeft rd rs1 (shamt.setWidth 64) s

/-- SRLI (R314). -/
def execSrli (rd rs1 : XReg) (shamt : BitVec 6) (s : State) : Result :=
  aluImm 4 shiftRight rd rs1 (shamt.setWidth 64) s

/-- SRAI (R315). -/
def execSrai (rd rs1 : XReg) (shamt : BitVec 6) (s : State) : Result :=
  aluImm 4 shiftRightArith rd rs1 (shamt.setWidth 64) s

/-- ADD (R316). -/
def execAdd (rd rs1 rs2 : XReg) (s : State) : Result := aluReg 4 (· + ·) rd rs1 rs2 s

/-- SUB (R317). -/
def execSub (rd rs1 rs2 : XReg) (s : State) : Result := aluReg 4 (· - ·) rd rs1 rs2 s

/-- SLL (R318). -/
def execSll (rd rs1 rs2 : XReg) (s : State) : Result := aluReg 4 shiftLeft rd rs1 rs2 s

/-- SLT (R319). -/
def execSlt (rd rs1 rs2 : XReg) (s : State) : Result := aluReg 4 setLess rd rs1 rs2 s

/-- SLTU (R320). -/
def execSltu (rd rs1 rs2 : XReg) (s : State) : Result := aluReg 4 setLessU rd rs1 rs2 s

/-- XOR (R321). -/
def execXor (rd rs1 rs2 : XReg) (s : State) : Result := aluReg 4 (· ^^^ ·) rd rs1 rs2 s

/-- SRL (R322). -/
def execSrl (rd rs1 rs2 : XReg) (s : State) : Result := aluReg 4 shiftRight rd rs1 rs2 s

/-- SRA (R323). -/
def execSra (rd rs1 rs2 : XReg) (s : State) : Result := aluReg 4 shiftRightArith rd rs1 rs2 s

/-- OR (R324). -/
def execOr (rd rs1 rs2 : XReg) (s : State) : Result := aluReg 4 (· ||| ·) rd rs1 rs2 s

/-- AND (R325). -/
def execAnd (rd rs1 rs2 : XReg) (s : State) : Result := aluReg 4 (· &&& ·) rd rs1 rs2 s

/-- ADDIW (R326). -/
def execAddiw (rd rs1 : XReg) (imm : BitVec 12) (s : State) : Result :=
  aluImm 4 (viewW (· + ·)) rd rs1 (immSigned imm) s

/-- SLLIW (R327). -/
def execSlliw (rd rs1 : XReg) (shamt : BitVec 5) (s : State) : Result :=
  aluImm 4 shiftLeftW rd rs1 (shamt.setWidth 64) s

/-- SRLIW (R328). -/
def execSrliw (rd rs1 : XReg) (shamt : BitVec 5) (s : State) : Result :=
  aluImm 4 shiftRightW rd rs1 (shamt.setWidth 64) s

/-- SRAIW (R329). -/
def execSraiw (rd rs1 : XReg) (shamt : BitVec 5) (s : State) : Result :=
  aluImm 4 shiftRightArithW rd rs1 (shamt.setWidth 64) s

/-- ADDW (R330). -/
def execAddw (rd rs1 rs2 : XReg) (s : State) : Result := aluReg 4 (viewW (· + ·)) rd rs1 rs2 s

/-- SUBW (R331). -/
def execSubw (rd rs1 rs2 : XReg) (s : State) : Result := aluReg 4 (viewW (· - ·)) rd rs1 rs2 s

/-- SLLW (R332). -/
def execSllw (rd rs1 rs2 : XReg) (s : State) : Result := aluReg 4 shiftLeftW rd rs1 rs2 s

/-- SRLW (R333). -/
def execSrlw (rd rs1 rs2 : XReg) (s : State) : Result := aluReg 4 shiftRightW rd rs1 rs2 s

/-- SRAW (R334). -/
def execSraw (rd rs1 rs2 : XReg) (s : State) : Result := aluReg 4 shiftRightArithW rd rs1 rs2 s

end Sys2Proof.Machine
end

