-- ==== Sys2Proof/Machine/Compressed.lean ====
section
/-! DEFINITION. The compressed instructions (R700 to R741): each does what its expansion does, with len = 2 for the next
pc and the link value (R700, R10). Its immediate is the compressed one after scaling and extension. -/

namespace Sys2Proof.Machine

/-- C.ADDI4SPN (R705): `addi rd'+8, x2, nzuimm`. -/
def execCAddi4spn (rd : XReg) (nzuimm : BitVec 10) (s : State) : Result :=
  aluImm 2 (· + ·) rd 2#5 (offsetUnsigned nzuimm) s

/-- C.FLD (R706): `fld frd'+8, uimm(rs1'+8)`. -/
def execCFld (frd : FReg) (rs1 : XReg) (uimm : BitVec 8) (s : State) : Result :=
  loadF 2 frd (s.addrC rs1 uimm) 8 id s

/-- C.LW (R707): `lw rd'+8, uimm(rs1'+8)`. -/
def execCLw (rd rs1 : XReg) (uimm : BitVec 7) (s : State) : Result :=
  loadX 2 rd (s.addrC rs1 uimm) 4 (sextBytes 4) s

/-- C.LD (R708): `ld rd'+8, uimm(rs1'+8)`. -/
def execCLd (rd rs1 : XReg) (uimm : BitVec 8) (s : State) : Result :=
  loadX 2 rd (s.addrC rs1 uimm) 8 id s

/-- C.FSD (R709): `fsd frs2'+8, uimm(rs1'+8)`. -/
def execCFsd (frs2 : FReg) (rs1 : XReg) (uimm : BitVec 8) (s : State) : Result :=
  storeBytes 2 (s.addrC rs1 uimm) 8 (s.rf frs2) s

/-- C.SW (R710): `sw rs2'+8, uimm(rs1'+8)`. -/
def execCSw (rs2 rs1 : XReg) (uimm : BitVec 7) (s : State) : Result :=
  storeBytes 2 (s.addrC rs1 uimm) 4 (s.rx rs2) s

/-- C.SD (R711): `sd rs2'+8, uimm(rs1'+8)`. -/
def execCSd (rs2 rs1 : XReg) (uimm : BitVec 8) (s : State) : Result :=
  storeBytes 2 (s.addrC rs1 uimm) 8 (s.rx rs2) s

/-- C.NOP (R712): `addi x0, x0, imm`. -/
def execCNop (imm : BitVec 6) (s : State) : Result :=
  aluImm 2 (· + ·) 0#5 0#5 (offsetSigned imm) s

/-- C.ADDI (R713): `addi rd, rd, imm`. -/
def execCAddi (rd : XReg) (imm : BitVec 6) (s : State) : Result :=
  aluImm 2 (· + ·) rd rd (offsetSigned imm) s

/-- C.ADDIW (R714): `addiw rd, rd, imm`. -/
def execCAddiw (rd : XReg) (imm : BitVec 6) (s : State) : Result :=
  aluImm 2 (viewW (· + ·)) rd rd (offsetSigned imm) s

/-- C.LI (R715): `addi rd, x0, imm`. -/
def execCLi (rd : XReg) (imm : BitVec 6) (s : State) : Result :=
  aluImm 2 (· + ·) rd 0#5 (offsetSigned imm) s

/-- C.ADDI16SP (R716): `addi x2, x2, nzimm`. -/
def execCAddi16sp (nzimm : BitVec 10) (s : State) : Result :=
  aluImm 2 (· + ·) 2#5 2#5 (offsetSigned nzimm) s

/-- C.LUI (R717): `lui rd, nzimm[17:12]`. -/
def execCLui (rd : XReg) (nzimm : BitVec 18) (s : State) : Result :=
  retireX 2 rd (offsetSigned nzimm) s

/-- C.SRLI (R718): `srli rd'+8, rd'+8, shamt`. -/
def execCSrli (rd : XReg) (shamt : BitVec 6) (s : State) : Result :=
  aluImm 2 shiftRight rd rd (shamt.setWidth 64) s

/-- C.SRAI (R719): `srai rd'+8, rd'+8, shamt`. -/
def execCSrai (rd : XReg) (shamt : BitVec 6) (s : State) : Result :=
  aluImm 2 shiftRightArith rd rd (shamt.setWidth 64) s

/-- C.ANDI (R720): `andi rd'+8, rd'+8, imm`. -/
def execCAndi (rd : XReg) (imm : BitVec 6) (s : State) : Result :=
  aluImm 2 (· &&& ·) rd rd (offsetSigned imm) s

/-- C.SUB (R721): `sub rd'+8, rd'+8, rs2'+8`. -/
def execCSub (rd rs2 : XReg) (s : State) : Result :=
  aluReg 2 (· - ·) rd rd rs2 s

/-- C.XOR (R722): `xor rd'+8, rd'+8, rs2'+8`. -/
def execCXor (rd rs2 : XReg) (s : State) : Result :=
  aluReg 2 (· ^^^ ·) rd rd rs2 s

/-- C.OR (R723): `or rd'+8, rd'+8, rs2'+8`. -/
def execCOr (rd rs2 : XReg) (s : State) : Result :=
  aluReg 2 (· ||| ·) rd rd rs2 s

/-- C.AND (R724): `and rd'+8, rd'+8, rs2'+8`. -/
def execCAnd (rd rs2 : XReg) (s : State) : Result :=
  aluReg 2 (· &&& ·) rd rd rs2 s

/-- C.SUBW (R725): `subw rd'+8, rd'+8, rs2'+8`. -/
def execCSubw (rd rs2 : XReg) (s : State) : Result :=
  aluReg 2 (viewW (· - ·)) rd rd rs2 s

/-- C.ADDW (R726): `addw rd'+8, rd'+8, rs2'+8`. -/
def execCAddw (rd rs2 : XReg) (s : State) : Result :=
  aluReg 2 (viewW (· + ·)) rd rd rs2 s

/-- C.J (R727): `jal x0, offset`. -/
def execCJ (offset : BitVec 12) (s : State) : Result :=
  jumpLink 2 0#5 (s.pc + offsetSigned offset) s

/-- C.BEQZ (R728): `beq rs1'+8, x0, offset`. -/
def execCBeqz (rs1 : XReg) (offset : BitVec 9) (s : State) : Result :=
  branch 2 (s.rx rs1 == s.rx 0#5) (offsetSigned offset) s

/-- C.BNEZ (R729): `bne rs1'+8, x0, offset`. -/
def execCBnez (rs1 : XReg) (offset : BitVec 9) (s : State) : Result :=
  branch 2 (s.rx rs1 != s.rx 0#5) (offsetSigned offset) s

/-- C.SLLI (R730): `slli rd, rd, shamt`. -/
def execCSlli (rd : XReg) (shamt : BitVec 6) (s : State) : Result :=
  aluImm 2 shiftLeft rd rd (shamt.setWidth 64) s

/-- C.FLDSP (R731): `fld frd, uimm(x2)`. -/
def execCFldsp (frd : FReg) (uimm : BitVec 9) (s : State) : Result :=
  loadF 2 frd (s.addrC 2#5 uimm) 8 id s

/-- C.LWSP (R732): `lw rd, uimm(x2)`. -/
def execCLwsp (rd : XReg) (uimm : BitVec 8) (s : State) : Result :=
  loadX 2 rd (s.addrC 2#5 uimm) 4 (sextBytes 4) s

/-- C.LDSP (R733): `ld rd, uimm(x2)`. -/
def execCLdsp (rd : XReg) (uimm : BitVec 9) (s : State) : Result :=
  loadX 2 rd (s.addrC 2#5 uimm) 8 id s

/-- C.JR (R734): `jalr x0, 0(rs1)`. -/
def execCJr (rs1 : XReg) (s : State) : Result :=
  jumpLink 2 0#5 (indirectTarget (s.rx rs1) 0#64) s

/-- C.MV (R735): `add rd, x0, rs2`. -/
def execCMv (rd rs2 : XReg) (s : State) : Result :=
  aluReg 2 (· + ·) rd 0#5 rs2 s

/-- C.EBREAK (R736): `ebreak`. -/
def execCEbreak (s : State) : Result :=
  raise .breakpoint s

/-- C.JALR (R737): `jalr x1, 0(rs1)`. -/
def execCJalr (rs1 : XReg) (s : State) : Result :=
  jumpLink 2 1#5 (indirectTarget (s.rx rs1) 0#64) s

/-- C.ADD (R738): `add rd, rd, rs2`. -/
def execCAdd (rd rs2 : XReg) (s : State) : Result :=
  aluReg 2 (· + ·) rd rd rs2 s

/-- C.FSDSP (R739): `fsd frs2, uimm(x2)`. -/
def execCFsdsp (frs2 : FReg) (uimm : BitVec 9) (s : State) : Result :=
  storeBytes 2 (s.addrC 2#5 uimm) 8 (s.rf frs2) s

/-- C.SWSP (R740): `sw rs2, uimm(x2)`. -/
def execCSwsp (rs2 : XReg) (uimm : BitVec 8) (s : State) : Result :=
  storeBytes 2 (s.addrC 2#5 uimm) 4 (s.rx rs2) s

/-- C.SDSP (R741): `sd rs2, uimm(x2)`. -/
def execCSdsp (rs2 : XReg) (uimm : BitVec 9) (s : State) : Result :=
  storeBytes 2 (s.addrC 2#5 uimm) 8 (s.rx rs2) s

end Sys2Proof.Machine
end

