-- ==== Sys2Proof/Machine/Float.lean ====
section
/-! DEFINITION. Floating-point numerics (R400 to R438): the two formats, exact results as integers and fractions, one
rounding, and the operations the instruction rules call. A format is generic in the width of its patterns, so S and D
share every definition. -/

namespace Sys2Proof.Machine

/-! ## Formats and values (R400, R401) -/

/-- A binary interchange format of `w` bits: a sign bit, `expBits` exponent bits, `fracBits` fraction bits (R400). -/
structure Fmt (w : Nat) where
  fracBits : Nat
  expBits  : Nat
deriving DecidableEq, Repr

/-- S, binary32 (R400). -/
def fmtS : Fmt 32 := { fracBits := 23, expBits := 8 }

/-- D, binary64 (R400). -/
def fmtD : Fmt 64 := { fracBits := 52, expBits := 11 }

/-- The precision p (R400). -/
def Fmt.prec {w : Nat} (F : Fmt w) : Nat := F.fracBits + 1

/-- The bias, which is also emax (R400). -/
def Fmt.bias {w : Nat} (F : Fmt w) : Nat := 2 ^ (F.expBits - 1) - 1

/-- The exponent of the last place of subnormals and the smallest normals: emin - (p - 1) (R400, R401). -/
def Fmt.qmin {w : Nat} (F : Fmt w) : Int := 1 - (F.bias : Int) - F.fracBits

/-- The exponent field of all ones (R401). -/
def Fmt.expOnes {w : Nat} (F : Fmt w) : Nat := 2 ^ F.expBits - 1

/-- The fraction field (R400). -/
def Fmt.fracField {w : Nat} (F : Fmt w) (b : BitVec w) : Nat := b.toNat % 2 ^ F.fracBits

/-- The biased exponent field (R400). -/
def Fmt.expField {w : Nat} (F : Fmt w) (b : BitVec w) : Nat := b.toNat / 2 ^ F.fracBits % 2 ^ F.expBits

/-- The sign bit as a sign: is it negative (R400)? -/
def signOf {w : Nat} (b : BitVec w) : Bool := b.msb

/-- The pattern without its sign bit, as a number. -/
def magnitudeOf {w : Nat} (b : BitVec w) : Nat := b.toNat % 2 ^ (w - 1)

/-- The pattern with this sign and this magnitude. -/
def withSign {w : Nat} (neg : Bool) (magnitude : Nat) : BitVec w :=
  BitVec.ofNat w ((if neg then 2 ^ (w - 1) else 0) + magnitude)

/-- The pattern with its sign bit replaced (R435). -/
def setSign {w : Nat} (neg : Bool) (b : BitVec w) : BitVec w := withSign neg (magnitudeOf b)

/-- The infinity of this sign (R401). -/
def Fmt.infinity {w : Nat} (F : Fmt w) (neg : Bool) : BitVec w := withSign neg (F.expOnes * 2 ^ F.fracBits)

/-- The zero of this sign (R401). -/
def zeroOf {w : Nat} (neg : Bool) : BitVec w := withSign neg 0

/-- The largest finite value of this sign (R401). -/
def Fmt.maxFinite {w : Nat} (F : Fmt w) (neg : Bool) : BitVec w := withSign neg (F.expOnes * 2 ^ F.fracBits - 1)

/-- The canonical NaN (R409): sign 0, exponent all ones, quiet bit 1, the rest 0. -/
def Fmt.canonicalNaN {w : Nat} (F : Fmt w) : BitVec w :=
  withSign false (F.expOnes * 2 ^ F.fracBits + 2 ^ (F.fracBits - 1))

/-- What a pattern denotes (R401, R408): a NaN, an infinity, or the number `(-1)^neg * m * 2^e`, a signed zero when m
is 0. -/
inductive Datum where
  | nan (signaling : Bool)
  | inf (neg : Bool)
  | fin (neg : Bool) (m : Nat) (e : Int)
deriving DecidableEq, Repr

/-- The value of a pattern (R401); a NaN is signaling when its top fraction bit is 0 (R408). -/
def Fmt.datum {w : Nat} (F : Fmt w) (b : BitVec w) : Datum :=
  if F.expField b = F.expOnes then
    if F.fracField b = 0 then .inf (signOf b)
    else .nan (decide (F.fracField b < 2 ^ (F.fracBits - 1)))
  else if F.expField b = 0 then .fin (signOf b) (F.fracField b) F.qmin
  else .fin (signOf b) (2 ^ F.fracBits + F.fracField b) (F.qmin + (F.expField b - 1 : Nat))

/-- Whether it is a NaN (R408). -/
def Datum.isNaN : Datum → Bool
  | .nan _ => true
  | .inf _ => false
  | .fin _ _ _ => false

/-- Whether it is a signaling NaN (R408). -/
def Datum.isSNaN : Datum → Bool
  | .nan signaling => signaling
  | .inf _ => false
  | .fin _ _ _ => false

/-- The value with its sign flipped: `-b` of R438. -/
def Datum.negate : Datum → Datum
  | .nan signaling => .nan signaling
  | .inf neg => .inf (!neg)
  | .fin neg m e => .fin (!neg) m e

/-! ## Rounding (R406, R415 to R417) -/

/-- A fraction times a power of two, as a fraction. -/
def scale (num den : Nat) (k : Int) : Nat × Nat :=
  match k with
  | .ofNat n => (num <<< n, den)
  | .negSucc n => (num, den <<< (n + 1))

/-- `num / den` rounded to an integer magnitude (R406): up or down by the mode, the sign and the remainder. -/
def roundInt (m : RoundingMode) (neg : Bool) (num den : Nat) : Nat :=
  let q := num / den
  let r := num % den
  let up : Bool :=
    match m with
    | .rne => decide (2 * r > den) || (decide (2 * r = den) && decide (q % 2 = 1))
    | .rtz => false
    | .rdn => neg && decide (r ≠ 0)
    | .rup => !neg && decide (r ≠ 0)
    | .rmm => decide (2 * r ≥ den)
  if up then q + 1 else q

/-- Whether `num / den` is no integer. -/
def inexactInt (num den : Nat) : Bool := decide (num % den ≠ 0)

/-- The exponent of the leading bit of a positive fraction: `2^E ≤ num / den < 2^(E+1)`. -/
def leadingExp (num den : Nat) : Int :=
  let e : Int := (Nat.log2 num : Int) - Nat.log2 den
  if (scale num den (-e)).1 ≥ (scale num den (-e)).2 then e else e - 1

/-- The exponent of the leading bit after rounding to p bits with an unbounded exponent range: that of r' (R415 step 2). -/
def roundedExp {w : Nat} (F : Fmt w) (m : RoundingMode) (neg : Bool) (num den : Nat) : Int :=
  let e := leadingExp num den
  let s := scale num den (F.fracBits - e)
  if roundInt m neg s.1 s.2 = 2 ^ F.prec then e + 1 else e

/-- The overflow result (R416). -/
def Fmt.overflow {w : Nat} (F : Fmt w) (m : RoundingMode) (neg : Bool) : BitVec w :=
  match m, neg with
  | .rne, _ => F.infinity neg
  | .rmm, _ => F.infinity neg
  | .rtz, _ => F.maxFinite neg
  | .rdn, false => F.maxFinite neg
  | .rdn, true => F.infinity neg
  | .rup, false => F.infinity neg
  | .rup, true => F.maxFinite neg

/-- `roundF` of a non-zero real `(-1)^neg * num / den` (R415 steps 2 to 5): the pattern and the flags. `q` is the exponent
of the last place of the format's grid at r, and `n` the result in units of it. -/
def Fmt.round {w : Nat} (F : Fmt w) (m : RoundingMode) (neg : Bool) (num den : Nat) : BitVec w × FlagSet :=
  let e := roundedExp F m neg num den
  if e > F.bias then (F.overflow m neg, flagOF ||| flagNX)
  else
    let q : Int := max (leadingExp num den - F.fracBits) F.qmin
    let s := scale num den (-q)
    let n := roundInt m neg s.1 s.2
    let inexact := inexactInt s.1 s.2
    let tiny := decide (e < 1 - (F.bias : Int))
    (withSign neg ((q - F.qmin).toNat <<< F.fracBits + n),
      flagIf inexact flagNX ||| flagIf (tiny && inexact) flagUF)

/-! ## Exact results and arithmetic (R419 to R426, R438) -/

/-- The exact result of an operation, before rounding (R438). -/
inductive Exact where
  | invalid
  | divByZero (neg : Bool)
  | inf (neg : Bool)
  | zero (neg : Bool)
  | real (neg : Bool) (num den : Nat)
deriving DecidableEq, Repr

/-- `(-1)^neg * m * 2^e` as an exact result. -/
def exactFin (neg : Bool) (m : Nat) (e : Int) : Exact :=
  if m = 0 then .zero neg else .real neg (scale m 1 e).1 (scale m 1 e).2

/-- `m * 2^e` as a signed integer in units of `2^e0`, for `e0 ≤ e`. -/
def signedUnits (neg : Bool) (m : Nat) (e e0 : Int) : Int :=
  if neg then -((m <<< (e - e0).toNat : Nat) : Int) else ((m <<< (e - e0).toNat : Nat) : Int)

/-- The exact sum of two numbers, with the zero signs of R419 and the invalid case of R421. -/
def exactAdd (m : RoundingMode) : Datum → Datum → Exact
  | .inf n1, .inf n2 => if n1 = n2 then .inf n1 else .invalid
  | .inf n1, .fin _ _ _ => .inf n1
  | .fin _ _ _, .inf n2 => .inf n2
  | .fin n1 m1 e1, .fin n2 m2 e2 =>
    if m1 = 0 ∧ m2 = 0 ∧ n1 = n2 then .zero n1
    else
      let e0 := min e1 e2
      let sum := signedUnits n1 m1 e1 e0 + signedUnits n2 m2 e2 e0
      if sum = 0 then .zero (decide (m = .rdn)) else exactFin (decide (sum < 0)) sum.natAbs e0
  | .nan _, _ => .invalid
  | _, .nan _ => .invalid

/-- The exact product of two numbers, sign by R420; `none` for an infinity times a zero (R421, R424) and for a NaN. -/
def product : Datum → Datum → Option Datum
  | .inf n1, .inf n2 => some (.inf (n1 ^^ n2))
  | .inf n1, .fin n2 m2 _ => if m2 = 0 then none else some (.inf (n1 ^^ n2))
  | .fin n1 m1 _, .inf n2 => if m1 = 0 then none else some (.inf (n1 ^^ n2))
  | .fin n1 m1 e1, .fin n2 m2 e2 => some (.fin (n1 ^^ n2) (m1 * m2) (e1 + e2))
  | .nan _, _ => none
  | _, .nan _ => none

/-- A product as an exact result. -/
def exactMul (a b : Datum) : Exact :=
  match product a b with
  | some (.fin neg m e) => exactFin neg m e
  | some (.inf neg) => .inf neg
  | some (.nan _) => .invalid
  | none => .invalid

/-- `a * b + c`, exact (R424, R438). -/
def exactFma (m : RoundingMode) (a b c : Datum) : Exact :=
  match product a b with
  | some p => exactAdd m p c
  | none => .invalid

/-- The exact quotient (R420, R421, R425). -/
def exactDiv : Datum → Datum → Exact
  | .inf _, .inf _ => .invalid
  | .inf n1, .fin n2 _ _ => .inf (n1 ^^ n2)
  | .fin n1 _ _, .inf n2 => .zero (n1 ^^ n2)
  | .fin n1 m1 e1, .fin n2 m2 e2 =>
    if m2 = 0 then
      if m1 = 0 then .invalid else .divByZero (n1 ^^ n2)
    else if m1 = 0 then .zero (n1 ^^ n2)
    else
      let s := scale m1 m2 (e1 - e2)
      .real (n1 ^^ n2) s.1 s.2
  | .nan _, _ => .invalid
  | _, .nan _ => .invalid

/-- The integer square root, bit by bit: `c` the root so far, `k` the bits still to decide. -/
def isqrtFrom (n : Nat) : Nat → Nat → Nat
  | 0, c => c
  | k + 1, c => if (c + 2 ^ k) * (c + 2 ^ k) ≤ n then isqrtFrom n k (c + 2 ^ k) else isqrtFrom n k c

/-- The integer square root: the largest c with `c * c ≤ n`. -/
def isqrt (n : Nat) : Nat := isqrtFrom n (n.log2 / 2 + 1) 0

/-- The square root of `m * 2^e`, m > 0, as a fraction that rounds as the exact root does (R426): with `k` more bits than
twice the precision, the root is `s * 2^h` when exact, and else lies strictly between `s` and `s + 1` in those units,
where no representable value and no midpoint of two lies, so `s + 1/2` stands for it. -/
def sqrtFraction (k : Nat) (m : Nat) (e : Int) : Nat × Nat :=
  let m0 := if e % 2 = 0 then m else 2 * m
  let n := m0 <<< (2 * k)
  let s := isqrt n
  let half := (e - e % 2) / 2 - k
  if s * s = n then scale s 1 half else scale (2 * s + 1) 2 half

/-- The square root (R421, R426). -/
def exactSqrt {w : Nat} (F : Fmt w) : Datum → Exact
  | .inf neg => if neg then .invalid else .inf false
  | .fin neg m e =>
    if m = 0 then .zero neg
    else if neg then .invalid
    else .real false (sqrtFraction (F.prec + 2) m e).1 (sqrtFraction (F.prec + 2) m e).2
  | .nan _ => .invalid

/-- The order of cases of `arith` (R438): signaling NaN, an infinity times a zero in an FMA, any NaN, an invalid
operation, division by zero, and else the exact result rounded once. -/
def Fmt.arith {w : Nat} (F : Fmt w) (m : RoundingMode) (operands : List Datum) (infTimesZero : Bool) (exact : Exact) :
    BitVec w × FlagSet :=
  if operands.any Datum.isSNaN then (F.canonicalNaN, flagNV)
  else if infTimesZero then (F.canonicalNaN, flagNV)
  else if operands.any Datum.isNaN then (F.canonicalNaN, noFlags)
  else
    match exact with
    | .invalid => (F.canonicalNaN, flagNV)
    | .divByZero neg => (F.infinity neg, flagDZ)
    | .inf neg => (F.infinity neg, noFlags)
    | .zero neg => (zeroOf neg, noFlags)
    | .real neg num den => F.round m neg num den

/-- `addF` (R438). -/
def Fmt.add {w : Nat} (F : Fmt w) (m : RoundingMode) (a b : BitVec w) : BitVec w × FlagSet :=
  F.arith m [F.datum a, F.datum b] false (exactAdd m (F.datum a) (F.datum b))

/-- `subF` (R438): the sum with the sign of b flipped. -/
def Fmt.sub {w : Nat} (F : Fmt w) (m : RoundingMode) (a b : BitVec w) : BitVec w × FlagSet :=
  F.arith m [F.datum a, F.datum b] false (exactAdd m (F.datum a) (F.datum b).negate)

/-- `mulF` (R438). -/
def Fmt.mul {w : Nat} (F : Fmt w) (m : RoundingMode) (a b : BitVec w) : BitVec w × FlagSet :=
  F.arith m [F.datum a, F.datum b] false (exactMul (F.datum a) (F.datum b))

/-- `divF` (R438). -/
def Fmt.div {w : Nat} (F : Fmt w) (m : RoundingMode) (a b : BitVec w) : BitVec w × FlagSet :=
  F.arith m [F.datum a, F.datum b] false (exactDiv (F.datum a) (F.datum b))

/-- `sqrtF` (R438). -/
def Fmt.sqrt {w : Nat} (F : Fmt w) (m : RoundingMode) (a : BitVec w) : BitVec w × FlagSet :=
  F.arith m [F.datum a] false (exactSqrt F (F.datum a))

/-- Whether two operands are an infinity and a zero, in either order (R424). -/
def infTimesZero : Datum → Datum → Bool
  | .inf _, .fin _ m _ => decide (m = 0)
  | .fin _ m _, .inf _ => decide (m = 0)
  | .inf _, .inf _ => false
  | .fin _ _ _, .fin _ _ _ => false
  | .nan _, _ => false
  | _, .nan _ => false

/-- `fmaF` on values (R438): `a * b + c` with one rounding. -/
def Fmt.fma {w : Nat} (F : Fmt w) (m : RoundingMode) (a b c : Datum) : BitVec w × FlagSet :=
  F.arith m [a, b, c] (infTimesZero a b) (exactFma m a b c)

/-- FMADD (R438): `a * b + c`. -/
def Fmt.madd {w : Nat} (F : Fmt w) (m : RoundingMode) (a b c : BitVec w) : BitVec w × FlagSet :=
  F.fma m (F.datum a) (F.datum b) (F.datum c)

/-- FMSUB (R438): `a * b - c`. -/
def Fmt.msub {w : Nat} (F : Fmt w) (m : RoundingMode) (a b c : BitVec w) : BitVec w × FlagSet :=
  F.fma m (F.datum a) (F.datum b) (F.datum c).negate

/-- FNMSUB (R438): `-(a * b) + c`. -/
def Fmt.nmsub {w : Nat} (F : Fmt w) (m : RoundingMode) (a b c : BitVec w) : BitVec w × FlagSet :=
  F.fma m (F.datum a).negate (F.datum b) (F.datum c)

/-- FNMADD (R438): `-(a * b) - c`. -/
def Fmt.nmadd {w : Nat} (F : Fmt w) (m : RoundingMode) (a b c : BitVec w) : BitVec w × FlagSet :=
  F.fma m (F.datum a).negate (F.datum b) (F.datum c).negate

/-! ## Min/max, compare, classify, sign injection (R427 to R429, R435) -/

/-- A pattern's place in the order of FMIN and FMAX, which puts -0 below +0 (R427); for patterns that are no NaN. -/
def minMaxKey {w : Nat} (b : BitVec w) : Int :=
  if signOf b then -(magnitudeOf b : Int) - 1 else (magnitudeOf b : Int)

/-- A pattern's place in the numeric order, where -0 = +0 (R428); for patterns that are no NaN. -/
def numericKey {w : Nat} (b : BitVec w) : Int :=
  if signOf b then -(magnitudeOf b : Int) else (magnitudeOf b : Int)

/-- Whether a pattern is a NaN (R408). -/
def Fmt.isNaN {w : Nat} (F : Fmt w) (b : BitVec w) : Bool := (F.datum b).isNaN

/-- Whether a pattern is a signaling NaN (R408). -/
def Fmt.isSNaN {w : Nat} (F : Fmt w) (b : BitVec w) : Bool := (F.datum b).isSNaN

/-- The operand FMIN or FMAX returns (R427), with the choice between two that are no NaN given. -/
def Fmt.select {w : Nat} (F : Fmt w) (pickFirst : Bool) (a b : BitVec w) : BitVec w × FlagSet :=
  let r :=
    if F.isNaN a && F.isNaN b then F.canonicalNaN
    else if F.isNaN a then b
    else if F.isNaN b then a
    else if pickFirst then a else b
  (r, flagIf (F.isSNaN a || F.isSNaN b) flagNV)

/-- `min_R427`. -/
def Fmt.min {w : Nat} (F : Fmt w) (a b : BitVec w) : BitVec w × FlagSet :=
  F.select (decide (minMaxKey a ≤ minMaxKey b)) a b

/-- `max_R427`. -/
def Fmt.max {w : Nat} (F : Fmt w) (a b : BitVec w) : BitVec w × FlagSet :=
  F.select (decide (minMaxKey b ≤ minMaxKey a)) a b

/-- FEQ (R428): quiet, NV only for a signaling NaN. -/
def Fmt.feq {w : Nat} (F : Fmt w) (a b : BitVec w) : Word × FlagSet :=
  (boolWord (!F.isNaN a && !F.isNaN b && decide (numericKey a = numericKey b)),
    flagIf (F.isSNaN a || F.isSNaN b) flagNV)

/-- FLT (R428): signaling, NV for any NaN. -/
def Fmt.flt {w : Nat} (F : Fmt w) (a b : BitVec w) : Word × FlagSet :=
  (boolWord (!F.isNaN a && !F.isNaN b && decide (numericKey a < numericKey b)),
    flagIf (F.isNaN a || F.isNaN b) flagNV)

/-- FLE (R428): signaling, NV for any NaN. -/
def Fmt.fle {w : Nat} (F : Fmt w) (a b : BitVec w) : Word × FlagSet :=
  (boolWord (!F.isNaN a && !F.isNaN b && decide (numericKey a ≤ numericKey b)),
    flagIf (F.isNaN a || F.isNaN b) flagNV)

/-- The class index k of the ten classes (R402, R429). -/
def Fmt.classIndex {w : Nat} (F : Fmt w) (b : BitVec w) : Nat :=
  match F.datum b with
  | .nan signaling => if signaling then 8 else 9
  | .inf neg => if neg then 0 else 7
  | .fin neg m _ =>
    if m = 0 then
      if neg then 3 else 4
    else if F.expField b = 0 then
      if neg then 2 else 5
    else
      if neg then 1 else 6

/-- FCLASS (R429): one bit set. -/
def Fmt.fclass {w : Nat} (F : Fmt w) (b : BitVec w) : Word := 1#64 <<< F.classIndex b

/-- FSGNJ (R435): the sign of b. -/
def fsgnj {w : Nat} (a b : BitVec w) : BitVec w := setSign (signOf b) a

/-- FSGNJN (R435): the other sign than b's. -/
def fsgnjn {w : Nat} (a b : BitVec w) : BitVec w := setSign (!signOf b) a

/-- FSGNJX (R435): the XOR of the two signs. -/
def fsgnjx {w : Nat} (a b : BitVec w) : BitVec w := setSign (signOf a ^^ signOf b) a

/-! ## Conversions (R432 to R434) -/

/-- The integer types of the conversions (R432, R433). -/
inductive IntType where
  | w
  | wu
  | l
  | lu
deriving DecidableEq, Repr

/-- The least value of an integer type (R432). -/
def IntType.lo : IntType → Int
  | .w => -(2 ^ 31)
  | .wu => 0
  | .l => -(2 ^ 63)
  | .lu => 0

/-- The greatest value of an integer type (R432). -/
def IntType.hi : IntType → Int
  | .w => 2 ^ 31 - 1
  | .wu => 2 ^ 32 - 1
  | .l => 2 ^ 63 - 1
  | .lu => 2 ^ 64 - 1

/-- An integer of the type as `x[rd]` holds it: W and WU results are sign-extended from 32 bits (R432). -/
def IntType.toWord : IntType → Int → Word
  | .w, n => sext32 (BitVec.ofInt 32 n)
  | .wu, n => sext32 (BitVec.ofInt 32 n)
  | .l, n => BitVec.ofInt 64 n
  | .lu, n => BitVec.ofInt 64 n

/-- The integer operand `x[rs1]` names in an integer-to-float conversion (R433). -/
def IntType.ofWord : IntType → Word → Int
  | .w, v => (low32 v).toInt
  | .wu, v => ((low32 v).toNat : Int)
  | .l, v => v.toInt
  | .lu, v => (v.toNat : Int)

/-- A magnitude with a sign, as an integer. -/
def signedInt (neg : Bool) (n : Nat) : Int := if neg then -(n : Int) else (n : Int)

/-- `cvt_R432`: float to integer, saturating, with NV for a NaN and out of range and NX for an inexact result in range. -/
def Fmt.toInt {w : Nat} (F : Fmt w) (t : IntType) (m : RoundingMode) (b : BitVec w) : Word × FlagSet :=
  match F.datum b with
  | .nan _ => (t.toWord t.hi, flagNV)
  | .inf neg => (t.toWord (if neg then t.lo else t.hi), flagNV)
  | .fin neg mag e =>
    let s := scale mag 1 e
    let n := signedInt neg (roundInt m neg s.1 s.2)
    if n < t.lo then (t.toWord t.lo, flagNV)
    else if t.hi < n then (t.toWord t.hi, flagNV)
    else (t.toWord n, flagIf (inexactInt s.1 s.2) flagNX)

/-- Integer to float (R433): `roundF` of the integer; 0 gives +0. -/
def Fmt.ofInt {w : Nat} (F : Fmt w) (t : IntType) (m : RoundingMode) (v : Word) : BitVec w × FlagSet :=
  let n := t.ofWord v
  if n = 0 then (zeroOf false, noFlags) else F.round m (decide (n < 0)) n.natAbs 1

/-- `fp2fp_R434`: float to float, from format G to format F. -/
def Fmt.ofFloat {w v : Nat} (F : Fmt w) (G : Fmt v) (m : RoundingMode) (b : BitVec v) : BitVec w × FlagSet :=
  match G.datum b with
  | .nan signaling => (F.canonicalNaN, flagIf signaling flagNV)
  | .inf neg => (F.infinity neg, noFlags)
  | .fin neg mag e =>
    if mag = 0 then (zeroOf neg, noFlags) else F.round m neg (scale mag 1 e).1 (scale mag 1 e).2

end Sys2Proof.Machine
end

