-- ==== Sys2Proof/Machine/FpDouble.lean ====
section
/-! DEFINITION. The double-precision instructions (R500 to R531): all 64 bits of the container (R414), the effective rounding
mode first (R404), flags accrued when the instruction completes (R430). -/

namespace Sys2Proof.Machine

/-- FLD (R500). -/
def execFld (frd : FReg) (rs1 : XReg) (imm : BitVec 12) (s : State) : Result :=
  loadF 4 frd (s.addr rs1 imm) 8 id s

/-- FSD (R501). -/
def execFsd (frs2 : FReg) (rs1 : XReg) (imm : BitVec 12) (s : State) : Result :=
  storeBytes 4 (s.addr rs1 imm) 8 (s.rf frs2) s

/-- FMADD.D (R502). -/
def execFmaddD (frd frs1 frs2 frs3 : FReg) (rm : Rm) (s : State) : Result :=
  withMode rm s fun m => retireD frd (fmtD.madd m (s.rf frs1) (s.rf frs2) (s.rf frs3)) s

/-- FMSUB.D (R503). -/
def execFmsubD (frd frs1 frs2 frs3 : FReg) (rm : Rm) (s : State) : Result :=
  withMode rm s fun m => retireD frd (fmtD.msub m (s.rf frs1) (s.rf frs2) (s.rf frs3)) s

/-- FNMSUB.D (R504). -/
def execFnmsubD (frd frs1 frs2 frs3 : FReg) (rm : Rm) (s : State) : Result :=
  withMode rm s fun m => retireD frd (fmtD.nmsub m (s.rf frs1) (s.rf frs2) (s.rf frs3)) s

/-- FNMADD.D (R505). -/
def execFnmaddD (frd frs1 frs2 frs3 : FReg) (rm : Rm) (s : State) : Result :=
  withMode rm s fun m => retireD frd (fmtD.nmadd m (s.rf frs1) (s.rf frs2) (s.rf frs3)) s

/-- FADD.D (R506). -/
def execFaddD (frd frs1 frs2 : FReg) (rm : Rm) (s : State) : Result :=
  withMode rm s fun m => retireD frd (fmtD.add m (s.rf frs1) (s.rf frs2)) s

/-- FSUB.D (R507). -/
def execFsubD (frd frs1 frs2 : FReg) (rm : Rm) (s : State) : Result :=
  withMode rm s fun m => retireD frd (fmtD.sub m (s.rf frs1) (s.rf frs2)) s

/-- FMUL.D (R508). -/
def execFmulD (frd frs1 frs2 : FReg) (rm : Rm) (s : State) : Result :=
  withMode rm s fun m => retireD frd (fmtD.mul m (s.rf frs1) (s.rf frs2)) s

/-- FDIV.D (R509). -/
def execFdivD (frd frs1 frs2 : FReg) (rm : Rm) (s : State) : Result :=
  withMode rm s fun m => retireD frd (fmtD.div m (s.rf frs1) (s.rf frs2)) s

/-- FSQRT.D (R510). -/
def execFsqrtD (frd frs1 : FReg) (rm : Rm) (s : State) : Result :=
  withMode rm s fun m => retireD frd (fmtD.sqrt m (s.rf frs1)) s

/-- FSGNJ.D (R511). -/
def execFsgnjD (frd frs1 frs2 : FReg) (s : State) : Result :=
  retireF 4 frd (fsgnj (s.rf frs1) (s.rf frs2)) s

/-- FSGNJN.D (R512). -/
def execFsgnjnD (frd frs1 frs2 : FReg) (s : State) : Result :=
  retireF 4 frd (fsgnjn (s.rf frs1) (s.rf frs2)) s

/-- FSGNJX.D (R513). -/
def execFsgnjxD (frd frs1 frs2 : FReg) (s : State) : Result :=
  retireF 4 frd (fsgnjx (s.rf frs1) (s.rf frs2)) s

/-- FMIN.D (R514). -/
def execFminD (frd frs1 frs2 : FReg) (s : State) : Result :=
  retireD frd (fmtD.min (s.rf frs1) (s.rf frs2)) s

/-- FMAX.D (R515). -/
def execFmaxD (frd frs1 frs2 : FReg) (s : State) : Result :=
  retireD frd (fmtD.max (s.rf frs1) (s.rf frs2)) s

/-- FCVT.S.D (R516). -/
def execFcvtSD (frd frs1 : FReg) (rm : Rm) (s : State) : Result :=
  withMode rm s fun m => retireS frd (fmtS.ofFloat fmtD m (s.rf frs1)) s

/-- FCVT.D.S (R517): exact, but the mode is evaluated (R404). -/
def execFcvtDS (frd frs1 : FReg) (rm : Rm) (s : State) : Result :=
  withMode rm s fun m => retireD frd (fmtD.ofFloat fmtS m (s.rfS frs1)) s

/-- FEQ.D (R518). -/
def execFeqD (rd : XReg) (frs1 frs2 : FReg) (s : State) : Result :=
  retireXFlags rd (fmtD.feq (s.rf frs1) (s.rf frs2)) s

/-- FLT.D (R519). -/
def execFltD (rd : XReg) (frs1 frs2 : FReg) (s : State) : Result :=
  retireXFlags rd (fmtD.flt (s.rf frs1) (s.rf frs2)) s

/-- FLE.D (R520). -/
def execFleD (rd : XReg) (frs1 frs2 : FReg) (s : State) : Result :=
  retireXFlags rd (fmtD.fle (s.rf frs1) (s.rf frs2)) s

/-- FCLASS.D (R521). -/
def execFclassD (rd : XReg) (frs1 : FReg) (s : State) : Result :=
  retireX 4 rd (fmtD.fclass (s.rf frs1)) s

/-- FCVT.W.D (R522). -/
def execFcvtWD (rd : XReg) (frs1 : FReg) (rm : Rm) (s : State) : Result :=
  withMode rm s fun m => retireXFlags rd (fmtD.toInt .w m (s.rf frs1)) s

/-- FCVT.WU.D (R523). -/
def execFcvtWUD (rd : XReg) (frs1 : FReg) (rm : Rm) (s : State) : Result :=
  withMode rm s fun m => retireXFlags rd (fmtD.toInt .wu m (s.rf frs1)) s

/-- FCVT.L.D (R524). -/
def execFcvtLD (rd : XReg) (frs1 : FReg) (rm : Rm) (s : State) : Result :=
  withMode rm s fun m => retireXFlags rd (fmtD.toInt .l m (s.rf frs1)) s

/-- FCVT.LU.D (R525). -/
def execFcvtLUD (rd : XReg) (frs1 : FReg) (rm : Rm) (s : State) : Result :=
  withMode rm s fun m => retireXFlags rd (fmtD.toInt .lu m (s.rf frs1)) s

/-- FMV.X.D (R526). -/
def execFmvXD (rd : XReg) (frs1 : FReg) (s : State) : Result :=
  retireX 4 rd (s.rf frs1) s

/-- FCVT.D.W (R527). -/
def execFcvtDW (frd : FReg) (rs1 : XReg) (rm : Rm) (s : State) : Result :=
  withMode rm s fun m => retireD frd (fmtD.ofInt .w m (s.rx rs1)) s

/-- FCVT.D.WU (R528). -/
def execFcvtDWU (frd : FReg) (rs1 : XReg) (rm : Rm) (s : State) : Result :=
  withMode rm s fun m => retireD frd (fmtD.ofInt .wu m (s.rx rs1)) s

/-- FCVT.D.L (R529). -/
def execFcvtDL (frd : FReg) (rs1 : XReg) (rm : Rm) (s : State) : Result :=
  withMode rm s fun m => retireD frd (fmtD.ofInt .l m (s.rx rs1)) s

/-- FCVT.D.LU (R530). -/
def execFcvtDLU (frd : FReg) (rs1 : XReg) (rm : Rm) (s : State) : Result :=
  withMode rm s fun m => retireD frd (fmtD.ofInt .lu m (s.rx rs1)) s

/-- FMV.D.X (R531). -/
def execFmvDX (frd : FReg) (rs1 : XReg) (s : State) : Result :=
  retireF 4 frd (s.rx rs1) s

end Sys2Proof.Machine
end

