-- ==== Sys2Proof/Machine/FpSingle.lean ====
section
/-! DEFINITION. The single-precision instructions (R450 to R479): S operands unboxed (R412), S results boxed (R413), the
effective rounding mode first (R404), flags accrued when the instruction completes (R430). -/

namespace Sys2Proof.Machine

/-- FLW (R450): the loaded pattern, boxed. -/
def execFlw (frd : FReg) (rs1 : XReg) (imm : BitVec 12) (s : State) : Result :=
  loadF 4 frd (s.addr rs1 imm) 4 (fun v => boxS (low32 v)) s

/-- FSW (R451): the raw low word, not unboxed. -/
def execFsw (frs2 : FReg) (rs1 : XReg) (imm : BitVec 12) (s : State) : Result :=
  storeBytes 4 (s.addr rs1 imm) 4 (s.rf frs2) s

/-- FMADD.S (R452). -/
def execFmaddS (frd frs1 frs2 frs3 : FReg) (rm : Rm) (s : State) : Result :=
  withMode rm s fun m => retireS frd (fmtS.madd m (s.rfS frs1) (s.rfS frs2) (s.rfS frs3)) s

/-- FMSUB.S (R453). -/
def execFmsubS (frd frs1 frs2 frs3 : FReg) (rm : Rm) (s : State) : Result :=
  withMode rm s fun m => retireS frd (fmtS.msub m (s.rfS frs1) (s.rfS frs2) (s.rfS frs3)) s

/-- FNMSUB.S (R454). -/
def execFnmsubS (frd frs1 frs2 frs3 : FReg) (rm : Rm) (s : State) : Result :=
  withMode rm s fun m => retireS frd (fmtS.nmsub m (s.rfS frs1) (s.rfS frs2) (s.rfS frs3)) s

/-- FNMADD.S (R455). -/
def execFnmaddS (frd frs1 frs2 frs3 : FReg) (rm : Rm) (s : State) : Result :=
  withMode rm s fun m => retireS frd (fmtS.nmadd m (s.rfS frs1) (s.rfS frs2) (s.rfS frs3)) s

/-- FADD.S (R456). -/
def execFaddS (frd frs1 frs2 : FReg) (rm : Rm) (s : State) : Result :=
  withMode rm s fun m => retireS frd (fmtS.add m (s.rfS frs1) (s.rfS frs2)) s

/-- FSUB.S (R457). -/
def execFsubS (frd frs1 frs2 : FReg) (rm : Rm) (s : State) : Result :=
  withMode rm s fun m => retireS frd (fmtS.sub m (s.rfS frs1) (s.rfS frs2)) s

/-- FMUL.S (R458). -/
def execFmulS (frd frs1 frs2 : FReg) (rm : Rm) (s : State) : Result :=
  withMode rm s fun m => retireS frd (fmtS.mul m (s.rfS frs1) (s.rfS frs2)) s

/-- FDIV.S (R459). -/
def execFdivS (frd frs1 frs2 : FReg) (rm : Rm) (s : State) : Result :=
  withMode rm s fun m => retireS frd (fmtS.div m (s.rfS frs1) (s.rfS frs2)) s

/-- FSQRT.S (R460). -/
def execFsqrtS (frd frs1 : FReg) (rm : Rm) (s : State) : Result :=
  withMode rm s fun m => retireS frd (fmtS.sqrt m (s.rfS frs1)) s

/-- FSGNJ.S (R461). -/
def execFsgnjS (frd frs1 frs2 : FReg) (s : State) : Result :=
  retireF 4 frd (boxS (fsgnj (s.rfS frs1) (s.rfS frs2))) s

/-- FSGNJN.S (R462). -/
def execFsgnjnS (frd frs1 frs2 : FReg) (s : State) : Result :=
  retireF 4 frd (boxS (fsgnjn (s.rfS frs1) (s.rfS frs2))) s

/-- FSGNJX.S (R463). -/
def execFsgnjxS (frd frs1 frs2 : FReg) (s : State) : Result :=
  retireF 4 frd (boxS (fsgnjx (s.rfS frs1) (s.rfS frs2))) s

/-- FMIN.S (R464). -/
def execFminS (frd frs1 frs2 : FReg) (s : State) : Result :=
  retireS frd (fmtS.min (s.rfS frs1) (s.rfS frs2)) s

/-- FMAX.S (R465). -/
def execFmaxS (frd frs1 frs2 : FReg) (s : State) : Result :=
  retireS frd (fmtS.max (s.rfS frs1) (s.rfS frs2)) s

/-- FCVT.W.S (R466). -/
def execFcvtWS (rd : XReg) (frs1 : FReg) (rm : Rm) (s : State) : Result :=
  withMode rm s fun m => retireXFlags rd (fmtS.toInt .w m (s.rfS frs1)) s

/-- FCVT.WU.S (R467). -/
def execFcvtWUS (rd : XReg) (frs1 : FReg) (rm : Rm) (s : State) : Result :=
  withMode rm s fun m => retireXFlags rd (fmtS.toInt .wu m (s.rfS frs1)) s

/-- FCVT.L.S (R468). -/
def execFcvtLS (rd : XReg) (frs1 : FReg) (rm : Rm) (s : State) : Result :=
  withMode rm s fun m => retireXFlags rd (fmtS.toInt .l m (s.rfS frs1)) s

/-- FCVT.LU.S (R469). -/
def execFcvtLUS (rd : XReg) (frs1 : FReg) (rm : Rm) (s : State) : Result :=
  withMode rm s fun m => retireXFlags rd (fmtS.toInt .lu m (s.rfS frs1)) s

/-- FMV.X.W (R470): the raw low word, not unboxed. -/
def execFmvXW (rd : XReg) (frs1 : FReg) (s : State) : Result :=
  retireX 4 rd (sext32 (low32 (s.rf frs1))) s

/-- FEQ.S (R471). -/
def execFeqS (rd : XReg) (frs1 frs2 : FReg) (s : State) : Result :=
  retireXFlags rd (fmtS.feq (s.rfS frs1) (s.rfS frs2)) s

/-- FLT.S (R472). -/
def execFltS (rd : XReg) (frs1 frs2 : FReg) (s : State) : Result :=
  retireXFlags rd (fmtS.flt (s.rfS frs1) (s.rfS frs2)) s

/-- FLE.S (R473). -/
def execFleS (rd : XReg) (frs1 frs2 : FReg) (s : State) : Result :=
  retireXFlags rd (fmtS.fle (s.rfS frs1) (s.rfS frs2)) s

/-- FCLASS.S (R474). -/
def execFclassS (rd : XReg) (frs1 : FReg) (s : State) : Result :=
  retireX 4 rd (fmtS.fclass (s.rfS frs1)) s

/-- FCVT.S.W (R475). -/
def execFcvtSW (frd : FReg) (rs1 : XReg) (rm : Rm) (s : State) : Result :=
  withMode rm s fun m => retireS frd (fmtS.ofInt .w m (s.rx rs1)) s

/-- FCVT.S.WU (R476). -/
def execFcvtSWU (frd : FReg) (rs1 : XReg) (rm : Rm) (s : State) : Result :=
  withMode rm s fun m => retireS frd (fmtS.ofInt .wu m (s.rx rs1)) s

/-- FCVT.S.L (R477). -/
def execFcvtSL (frd : FReg) (rs1 : XReg) (rm : Rm) (s : State) : Result :=
  withMode rm s fun m => retireS frd (fmtS.ofInt .l m (s.rx rs1)) s

/-- FCVT.S.LU (R478). -/
def execFcvtSLU (frd : FReg) (rs1 : XReg) (rm : Rm) (s : State) : Result :=
  withMode rm s fun m => retireS frd (fmtS.ofInt .lu m (s.rx rs1)) s

/-- FMV.W.X (R479). -/
def execFmvWX (frd : FReg) (rs1 : XReg) (s : State) : Result :=
  retireF 4 frd (boxS (low32 (s.rx rs1))) s

end Sys2Proof.Machine
end

