-- ==== Sys2Proof/Machine/LoadStore.lean ====
section
/-! DEFINITION. Integer loads and stores (R570 to R584): plain accesses, admitted as R573 says. -/

namespace Sys2Proof.Machine

/-- LB (R574). -/
def execLb (rd rs1 : XReg) (imm : BitVec 12) (s : State) : Result := loadX 4 rd (s.addr rs1 imm) 1 (sextBytes 1) s

/-- LH (R575). -/
def execLh (rd rs1 : XReg) (imm : BitVec 12) (s : State) : Result := loadX 4 rd (s.addr rs1 imm) 2 (sextBytes 2) s

/-- LW (R576). -/
def execLw (rd rs1 : XReg) (imm : BitVec 12) (s : State) : Result := loadX 4 rd (s.addr rs1 imm) 4 (sextBytes 4) s

/-- LD (R577). -/
def execLd (rd rs1 : XReg) (imm : BitVec 12) (s : State) : Result := loadX 4 rd (s.addr rs1 imm) 8 id s

/-- LBU (R578). -/
def execLbu (rd rs1 : XReg) (imm : BitVec 12) (s : State) : Result := loadX 4 rd (s.addr rs1 imm) 1 (zextBytes 1) s

/-- LHU (R579). -/
def execLhu (rd rs1 : XReg) (imm : BitVec 12) (s : State) : Result := loadX 4 rd (s.addr rs1 imm) 2 (zextBytes 2) s

/-- LWU (R580). -/
def execLwu (rd rs1 : XReg) (imm : BitVec 12) (s : State) : Result := loadX 4 rd (s.addr rs1 imm) 4 (zextBytes 4) s

/-- SB (R581). -/
def execSb (rs2 rs1 : XReg) (imm : BitVec 12) (s : State) : Result := storeBytes 4 (s.addr rs1 imm) 1 (s.rx rs2) s

/-- SH (R582). -/
def execSh (rs2 rs1 : XReg) (imm : BitVec 12) (s : State) : Result := storeBytes 4 (s.addr rs1 imm) 2 (s.rx rs2) s

/-- SW (R583). -/
def execSw (rs2 rs1 : XReg) (imm : BitVec 12) (s : State) : Result := storeBytes 4 (s.addr rs1 imm) 4 (s.rx rs2) s

/-- SD (R584). -/
def execSd (rs2 rs1 : XReg) (imm : BitVec 12) (s : State) : Result := storeBytes 4 (s.addr rs1 imm) 8 (s.rx rs2) s

end Sys2Proof.Machine
end

