-- ==== Sys2Proof/Machine/MulDiv.lean ====
section
/-! DEFINITION. Multiply and divide (R350 to R363): products exact over the integers and then narrowed, quotients
rounded toward zero, and fixed results for a zero divisor and for signed overflow. -/

namespace Sys2Proof.Machine

/-- Bits 127 to 64 of an exact product, as 128-bit two's complement (R352 to R354). -/
def highHalf (p : Int) : Word := (BitVec.ofInt 128 p).extractLsb' 64 64

/-- MULH's result (R352). -/
def mulHigh (a b : Word) : Word := highHalf (a.toInt * b.toInt)

/-- MULHSU's result (R353): rs1 signed, rs2 unsigned. -/
def mulHighSU (a b : Word) : Word := highHalf (a.toInt * (b.toNat : Int))

/-- MULHU's result (R354). -/
def mulHighU (a b : Word) : Word := highHalf ((a.toNat : Int) * (b.toNat : Int))

/-- The signed quotient of N-bit operands, toward zero, with the two special cases of R350. -/
def divSigned {n : Nat} (a b : BitVec n) : BitVec n :=
  if b = 0#n then BitVec.allOnes n
  else if a = BitVec.intMin n ∧ b = BitVec.allOnes n then BitVec.intMin n
  else BitVec.ofInt n (a.toInt.tdiv b.toInt)

/-- The unsigned quotient (R350). -/
def divUnsigned {n : Nat} (a b : BitVec n) : BitVec n :=
  if b = 0#n then BitVec.allOnes n else BitVec.ofNat n (a.toNat / b.toNat)

/-- The signed remainder, with the sign of the dividend and the two special cases of R350. -/
def remSigned {n : Nat} (a b : BitVec n) : BitVec n :=
  if b = 0#n then a
  else if a = BitVec.intMin n ∧ b = BitVec.allOnes n then 0#n
  else BitVec.ofInt n (a.toInt - b.toInt * a.toInt.tdiv b.toInt)

/-- The unsigned remainder (R350). -/
def remUnsigned {n : Nat} (a b : BitVec n) : BitVec n :=
  if b = 0#n then a else BitVec.ofNat n (a.toNat % b.toNat)

/-- MUL (R351): the low 64 bits of the product. -/
def execMul (rd rs1 rs2 : XReg) (s : State) : Result := aluReg 4 (· * ·) rd rs1 rs2 s

/-- MULH (R352). -/
def execMulh (rd rs1 rs2 : XReg) (s : State) : Result := aluReg 4 mulHigh rd rs1 rs2 s

/-- MULHSU (R353). -/
def execMulhsu (rd rs1 rs2 : XReg) (s : State) : Result := aluReg 4 mulHighSU rd rs1 rs2 s

/-- MULHU (R354). -/
def execMulhu (rd rs1 rs2 : XReg) (s : State) : Result := aluReg 4 mulHighU rd rs1 rs2 s

/-- DIV (R355). -/
def execDiv (rd rs1 rs2 : XReg) (s : State) : Result := aluReg 4 divSigned rd rs1 rs2 s

/-- DIVU (R356). -/
def execDivu (rd rs1 rs2 : XReg) (s : State) : Result := aluReg 4 divUnsigned rd rs1 rs2 s

/-- REM (R357). -/
def execRem (rd rs1 rs2 : XReg) (s : State) : Result := aluReg 4 remSigned rd rs1 rs2 s

/-- REMU (R358). -/
def execRemu (rd rs1 rs2 : XReg) (s : State) : Result := aluReg 4 remUnsigned rd rs1 rs2 s

/-- MULW (R359). -/
def execMulw (rd rs1 rs2 : XReg) (s : State) : Result := aluReg 4 (viewW (· * ·)) rd rs1 rs2 s

/-- DIVW (R360). -/
def execDivw (rd rs1 rs2 : XReg) (s : State) : Result := aluReg 4 (viewW divSigned) rd rs1 rs2 s

/-- DIVUW (R361). -/
def execDivuw (rd rs1 rs2 : XReg) (s : State) : Result := aluReg 4 (viewW divUnsigned) rd rs1 rs2 s

/-- REMW (R362). -/
def execRemw (rd rs1 rs2 : XReg) (s : State) : Result := aluReg 4 (viewW remSigned) rd rs1 rs2 s

/-- REMUW (R363). -/
def execRemuw (rd rs1 rs2 : XReg) (s : State) : Result := aluReg 4 (viewW remUnsigned) rd rs1 rs2 s

end Sys2Proof.Machine
end

