-- ==== Sys2Proof/Machine/System.lean ====
section
/-! DEFINITION. Fences, environment calls and CSR instructions (R650 to R665). -/

namespace Sys2Proof.Machine

/-- FENCE (R650): one FENCE event in program order (Machine/Events.lean), whatever fm, pred and succ; no register, flag
or memory byte changes. rd and rs1 are ignored (R211). -/
def execFence (_fm _pred _succ : BitVec 4) (_rs1 _rd : XReg) (s : State) : Result := retire 4 s

/-- FENCE.I (R651): nothing but the pc; every field is ignored (R211). -/
def execFenceI (_imm : BitVec 12) (_rs1 _rd : XReg) (s : State) : Result := retire 4 s

/-- ECALL (R652): the Syscall event with x17 and x10 to x15, pc still at the ECALL. -/
def execEcall (s : State) : Result :=
  raise (.syscall (s.rx 17#5) (s.rx 10#5) (s.rx 11#5) (s.rx 12#5) (s.rx 13#5) (s.rx 14#5) (s.rx 15#5)) s

/-- EBREAK (R653): the Breakpoint event. -/
def execEbreak (s : State) : Result := raise .breakpoint s

/-- The common form of a CSR instruction (R658): rd gets the old value, and the CSR the new one, if any, in one step. -/
def csrAccess (rd : XReg) (csr : Csr) (new : Option Word) (s : State) : Result :=
  let t := s.wx rd (csrRead s.fcsr csr)
  match new with
  | some v => retire 4 (t.withFcsr (csrWrite s.fcsr v csr))
  | none => retire 4 t

/-- CSRRW (R660): always writes. -/
def execCsrrw (rd : XReg) (csr : Csr) (rs1 : XReg) (s : State) : Result := csrAccess rd csr (some (s.rx rs1)) s

/-- CSRRS (R661): writes unless rs1 is x0. -/
def execCsrrs (rd : XReg) (csr : Csr) (rs1 : XReg) (s : State) : Result :=
  csrAccess rd csr (if rs1 = 0#5 then none else some (csrRead s.fcsr csr ||| s.rx rs1)) s

/-- CSRRC (R662): writes unless rs1 is x0. -/
def execCsrrc (rd : XReg) (csr : Csr) (rs1 : XReg) (s : State) : Result :=
  csrAccess rd csr (if rs1 = 0#5 then none else some (csrRead s.fcsr csr &&& ~~~(s.rx rs1))) s

/-- CSRRWI (R663): always writes. -/
def execCsrrwi (rd : XReg) (csr : Csr) (uimm : BitVec 5) (s : State) : Result :=
  csrAccess rd csr (some (uimm.setWidth 64)) s

/-- CSRRSI (R664): writes unless uimm is 0. -/
def execCsrrsi (rd : XReg) (csr : Csr) (uimm : BitVec 5) (s : State) : Result :=
  csrAccess rd csr (if uimm = 0#5 then none else some (csrRead s.fcsr csr ||| uimm.setWidth 64)) s

/-- CSRRCI (R665): writes unless uimm is 0. -/
def execCsrrci (rd : XReg) (csr : Csr) (uimm : BitVec 5) (s : State) : Result :=
  csrAccess rd csr (if uimm = 0#5 then none else some (csrRead s.fcsr csr &&& ~~~(uimm.setWidth 64))) s

end Sys2Proof.Machine
end

