-- ==== Sys2Proof/Machine/Dispatch.lean ====
section
/-! DEFINITION. The dispatch of an instruction to its meaning, one arm for each constructor. -/

namespace Sys2Proof.Machine

def exec (i : Instr) (s : State) : Host.Outcome State Fault Refusal :=
  match i with
  -- RV64I integer register-immediate, jumps and branches
  | .lui rd imm => Sys2Proof.Machine.execLui rd imm s
  | .auipc rd imm => Sys2Proof.Machine.execAuipc rd imm s
  | .jal rd offset => Sys2Proof.Machine.execJal rd offset s
  | .jalr rd rs1 imm => Sys2Proof.Machine.execJalr rd rs1 imm s
  | .beq rs1 rs2 offset => Sys2Proof.Machine.execBeq rs1 rs2 offset s
  | .bne rs1 rs2 offset => Sys2Proof.Machine.execBne rs1 rs2 offset s
  | .blt rs1 rs2 offset => Sys2Proof.Machine.execBlt rs1 rs2 offset s
  | .bge rs1 rs2 offset => Sys2Proof.Machine.execBge rs1 rs2 offset s
  | .bltu rs1 rs2 offset => Sys2Proof.Machine.execBltu rs1 rs2 offset s
  | .bgeu rs1 rs2 offset => Sys2Proof.Machine.execBgeu rs1 rs2 offset s
  -- RV64I loads and stores
  | .lb rd rs1 imm => Sys2Proof.Machine.execLb rd rs1 imm s
  | .lh rd rs1 imm => Sys2Proof.Machine.execLh rd rs1 imm s
  | .lw rd rs1 imm => Sys2Proof.Machine.execLw rd rs1 imm s
  | .ld rd rs1 imm => Sys2Proof.Machine.execLd rd rs1 imm s
  | .lbu rd rs1 imm => Sys2Proof.Machine.execLbu rd rs1 imm s
  | .lhu rd rs1 imm => Sys2Proof.Machine.execLhu rd rs1 imm s
  | .lwu rd rs1 imm => Sys2Proof.Machine.execLwu rd rs1 imm s
  | .sb rs2 rs1 imm => Sys2Proof.Machine.execSb rs2 rs1 imm s
  | .sh rs2 rs1 imm => Sys2Proof.Machine.execSh rs2 rs1 imm s
  | .sw rs2 rs1 imm => Sys2Proof.Machine.execSw rs2 rs1 imm s
  | .sd rs2 rs1 imm => Sys2Proof.Machine.execSd rs2 rs1 imm s
  -- RV64I register-immediate
  | .addi rd rs1 imm => Sys2Proof.Machine.execAddi rd rs1 imm s
  | .slti rd rs1 imm => Sys2Proof.Machine.execSlti rd rs1 imm s
  | .sltiu rd rs1 imm => Sys2Proof.Machine.execSltiu rd rs1 imm s
  | .xori rd rs1 imm => Sys2Proof.Machine.execXori rd rs1 imm s
  | .ori rd rs1 imm => Sys2Proof.Machine.execOri rd rs1 imm s
  | .andi rd rs1 imm => Sys2Proof.Machine.execAndi rd rs1 imm s
  | .slli rd rs1 shamt => Sys2Proof.Machine.execSlli rd rs1 shamt s
  | .srli rd rs1 shamt => Sys2Proof.Machine.execSrli rd rs1 shamt s
  | .srai rd rs1 shamt => Sys2Proof.Machine.execSrai rd rs1 shamt s
  -- RV64I register-register
  | .add rd rs1 rs2 => Sys2Proof.Machine.execAdd rd rs1 rs2 s
  | .sub rd rs1 rs2 => Sys2Proof.Machine.execSub rd rs1 rs2 s
  | .sll rd rs1 rs2 => Sys2Proof.Machine.execSll rd rs1 rs2 s
  | .slt rd rs1 rs2 => Sys2Proof.Machine.execSlt rd rs1 rs2 s
  | .sltu rd rs1 rs2 => Sys2Proof.Machine.execSltu rd rs1 rs2 s
  | .xor rd rs1 rs2 => Sys2Proof.Machine.execXor rd rs1 rs2 s
  | .srl rd rs1 rs2 => Sys2Proof.Machine.execSrl rd rs1 rs2 s
  | .sra rd rs1 rs2 => Sys2Proof.Machine.execSra rd rs1 rs2 s
  | .or rd rs1 rs2 => Sys2Proof.Machine.execOr rd rs1 rs2 s
  | .and rd rs1 rs2 => Sys2Proof.Machine.execAnd rd rs1 rs2 s
  -- Fences and system
  | .fence fm pred succ rs1 rd => Sys2Proof.Machine.execFence fm pred succ rs1 rd s
  | .fenceI imm rs1 rd => Sys2Proof.Machine.execFenceI imm rs1 rd s
  | .ecall => Sys2Proof.Machine.execEcall s
  | .ebreak => Sys2Proof.Machine.execEbreak s
  -- RV64I word forms
  | .addiw rd rs1 imm => Sys2Proof.Machine.execAddiw rd rs1 imm s
  | .slliw rd rs1 shamt => Sys2Proof.Machine.execSlliw rd rs1 shamt s
  | .srliw rd rs1 shamt => Sys2Proof.Machine.execSrliw rd rs1 shamt s
  | .sraiw rd rs1 shamt => Sys2Proof.Machine.execSraiw rd rs1 shamt s
  | .addw rd rs1 rs2 => Sys2Proof.Machine.execAddw rd rs1 rs2 s
  | .subw rd rs1 rs2 => Sys2Proof.Machine.execSubw rd rs1 rs2 s
  | .sllw rd rs1 rs2 => Sys2Proof.Machine.execSllw rd rs1 rs2 s
  | .srlw rd rs1 rs2 => Sys2Proof.Machine.execSrlw rd rs1 rs2 s
  | .sraw rd rs1 rs2 => Sys2Proof.Machine.execSraw rd rs1 rs2 s
  -- RV64M
  | .mul rd rs1 rs2 => Sys2Proof.Machine.execMul rd rs1 rs2 s
  | .mulh rd rs1 rs2 => Sys2Proof.Machine.execMulh rd rs1 rs2 s
  | .mulhsu rd rs1 rs2 => Sys2Proof.Machine.execMulhsu rd rs1 rs2 s
  | .mulhu rd rs1 rs2 => Sys2Proof.Machine.execMulhu rd rs1 rs2 s
  | .div rd rs1 rs2 => Sys2Proof.Machine.execDiv rd rs1 rs2 s
  | .divu rd rs1 rs2 => Sys2Proof.Machine.execDivu rd rs1 rs2 s
  | .rem rd rs1 rs2 => Sys2Proof.Machine.execRem rd rs1 rs2 s
  | .remu rd rs1 rs2 => Sys2Proof.Machine.execRemu rd rs1 rs2 s
  | .mulw rd rs1 rs2 => Sys2Proof.Machine.execMulw rd rs1 rs2 s
  | .divw rd rs1 rs2 => Sys2Proof.Machine.execDivw rd rs1 rs2 s
  | .divuw rd rs1 rs2 => Sys2Proof.Machine.execDivuw rd rs1 rs2 s
  | .remw rd rs1 rs2 => Sys2Proof.Machine.execRemw rd rs1 rs2 s
  | .remuw rd rs1 rs2 => Sys2Proof.Machine.execRemuw rd rs1 rs2 s
  -- RV64A load-reserved and store-conditional
  | .lrW rd rs1 aq rl => Sys2Proof.Machine.execLrW rd rs1 aq rl s
  | .scW rd rs1 rs2 aq rl => Sys2Proof.Machine.execScW rd rs1 rs2 aq rl s
  | .lrD rd rs1 aq rl => Sys2Proof.Machine.execLrD rd rs1 aq rl s
  | .scD rd rs1 rs2 aq rl => Sys2Proof.Machine.execScD rd rs1 rs2 aq rl s
  -- RV64A read-modify-write, word
  | .amoswapW rd rs1 rs2 aq rl => Sys2Proof.Machine.execAmoswapW rd rs1 rs2 aq rl s
  | .amoaddW rd rs1 rs2 aq rl => Sys2Proof.Machine.execAmoaddW rd rs1 rs2 aq rl s
  | .amoxorW rd rs1 rs2 aq rl => Sys2Proof.Machine.execAmoxorW rd rs1 rs2 aq rl s
  | .amoandW rd rs1 rs2 aq rl => Sys2Proof.Machine.execAmoandW rd rs1 rs2 aq rl s
  | .amoorW rd rs1 rs2 aq rl => Sys2Proof.Machine.execAmoorW rd rs1 rs2 aq rl s
  | .amominW rd rs1 rs2 aq rl => Sys2Proof.Machine.execAmominW rd rs1 rs2 aq rl s
  | .amomaxW rd rs1 rs2 aq rl => Sys2Proof.Machine.execAmomaxW rd rs1 rs2 aq rl s
  | .amominuW rd rs1 rs2 aq rl => Sys2Proof.Machine.execAmominuW rd rs1 rs2 aq rl s
  | .amomaxuW rd rs1 rs2 aq rl => Sys2Proof.Machine.execAmomaxuW rd rs1 rs2 aq rl s
  -- RV64A read-modify-write, doubleword
  | .amoswapD rd rs1 rs2 aq rl => Sys2Proof.Machine.execAmoswapD rd rs1 rs2 aq rl s
  | .amoaddD rd rs1 rs2 aq rl => Sys2Proof.Machine.execAmoaddD rd rs1 rs2 aq rl s
  | .amoxorD rd rs1 rs2 aq rl => Sys2Proof.Machine.execAmoxorD rd rs1 rs2 aq rl s
  | .amoandD rd rs1 rs2 aq rl => Sys2Proof.Machine.execAmoandD rd rs1 rs2 aq rl s
  | .amoorD rd rs1 rs2 aq rl => Sys2Proof.Machine.execAmoorD rd rs1 rs2 aq rl s
  | .amominD rd rs1 rs2 aq rl => Sys2Proof.Machine.execAmominD rd rs1 rs2 aq rl s
  | .amomaxD rd rs1 rs2 aq rl => Sys2Proof.Machine.execAmomaxD rd rs1 rs2 aq rl s
  | .amominuD rd rs1 rs2 aq rl => Sys2Proof.Machine.execAmominuD rd rs1 rs2 aq rl s
  | .amomaxuD rd rs1 rs2 aq rl => Sys2Proof.Machine.execAmomaxuD rd rs1 rs2 aq rl s
  -- Zicsr
  | .csrrw rd csr rs1 => Sys2Proof.Machine.execCsrrw rd csr rs1 s
  | .csrrs rd csr rs1 => Sys2Proof.Machine.execCsrrs rd csr rs1 s
  | .csrrc rd csr rs1 => Sys2Proof.Machine.execCsrrc rd csr rs1 s
  | .csrrwi rd csr uimm => Sys2Proof.Machine.execCsrrwi rd csr uimm s
  | .csrrsi rd csr uimm => Sys2Proof.Machine.execCsrrsi rd csr uimm s
  | .csrrci rd csr uimm => Sys2Proof.Machine.execCsrrci rd csr uimm s
  -- RV64F
  | .flw frd rs1 imm => Sys2Proof.Machine.execFlw frd rs1 imm s
  | .fsw frs2 rs1 imm => Sys2Proof.Machine.execFsw frs2 rs1 imm s
  | .fmaddS frd frs1 frs2 frs3 rm => Sys2Proof.Machine.execFmaddS frd frs1 frs2 frs3 rm s
  | .fmsubS frd frs1 frs2 frs3 rm => Sys2Proof.Machine.execFmsubS frd frs1 frs2 frs3 rm s
  | .fnmsubS frd frs1 frs2 frs3 rm => Sys2Proof.Machine.execFnmsubS frd frs1 frs2 frs3 rm s
  | .fnmaddS frd frs1 frs2 frs3 rm => Sys2Proof.Machine.execFnmaddS frd frs1 frs2 frs3 rm s
  | .faddS frd frs1 frs2 rm => Sys2Proof.Machine.execFaddS frd frs1 frs2 rm s
  | .fsubS frd frs1 frs2 rm => Sys2Proof.Machine.execFsubS frd frs1 frs2 rm s
  | .fmulS frd frs1 frs2 rm => Sys2Proof.Machine.execFmulS frd frs1 frs2 rm s
  | .fdivS frd frs1 frs2 rm => Sys2Proof.Machine.execFdivS frd frs1 frs2 rm s
  | .fsqrtS frd frs1 rm => Sys2Proof.Machine.execFsqrtS frd frs1 rm s
  | .fsgnjS frd frs1 frs2 => Sys2Proof.Machine.execFsgnjS frd frs1 frs2 s
  | .fsgnjnS frd frs1 frs2 => Sys2Proof.Machine.execFsgnjnS frd frs1 frs2 s
  | .fsgnjxS frd frs1 frs2 => Sys2Proof.Machine.execFsgnjxS frd frs1 frs2 s
  | .fminS frd frs1 frs2 => Sys2Proof.Machine.execFminS frd frs1 frs2 s
  | .fmaxS frd frs1 frs2 => Sys2Proof.Machine.execFmaxS frd frs1 frs2 s
  | .fcvtWS rd frs1 rm => Sys2Proof.Machine.execFcvtWS rd frs1 rm s
  | .fcvtWUS rd frs1 rm => Sys2Proof.Machine.execFcvtWUS rd frs1 rm s
  | .fcvtLS rd frs1 rm => Sys2Proof.Machine.execFcvtLS rd frs1 rm s
  | .fcvtLUS rd frs1 rm => Sys2Proof.Machine.execFcvtLUS rd frs1 rm s
  | .fmvXW rd frs1 => Sys2Proof.Machine.execFmvXW rd frs1 s
  | .feqS rd frs1 frs2 => Sys2Proof.Machine.execFeqS rd frs1 frs2 s
  | .fltS rd frs1 frs2 => Sys2Proof.Machine.execFltS rd frs1 frs2 s
  | .fleS rd frs1 frs2 => Sys2Proof.Machine.execFleS rd frs1 frs2 s
  | .fclassS rd frs1 => Sys2Proof.Machine.execFclassS rd frs1 s
  | .fcvtSW frd rs1 rm => Sys2Proof.Machine.execFcvtSW frd rs1 rm s
  | .fcvtSWU frd rs1 rm => Sys2Proof.Machine.execFcvtSWU frd rs1 rm s
  | .fcvtSL frd rs1 rm => Sys2Proof.Machine.execFcvtSL frd rs1 rm s
  | .fcvtSLU frd rs1 rm => Sys2Proof.Machine.execFcvtSLU frd rs1 rm s
  | .fmvWX frd rs1 => Sys2Proof.Machine.execFmvWX frd rs1 s
  -- RV64D
  | .fld frd rs1 imm => Sys2Proof.Machine.execFld frd rs1 imm s
  | .fsd frs2 rs1 imm => Sys2Proof.Machine.execFsd frs2 rs1 imm s
  | .fmaddD frd frs1 frs2 frs3 rm => Sys2Proof.Machine.execFmaddD frd frs1 frs2 frs3 rm s
  | .fmsubD frd frs1 frs2 frs3 rm => Sys2Proof.Machine.execFmsubD frd frs1 frs2 frs3 rm s
  | .fnmsubD frd frs1 frs2 frs3 rm => Sys2Proof.Machine.execFnmsubD frd frs1 frs2 frs3 rm s
  | .fnmaddD frd frs1 frs2 frs3 rm => Sys2Proof.Machine.execFnmaddD frd frs1 frs2 frs3 rm s
  | .faddD frd frs1 frs2 rm => Sys2Proof.Machine.execFaddD frd frs1 frs2 rm s
  | .fsubD frd frs1 frs2 rm => Sys2Proof.Machine.execFsubD frd frs1 frs2 rm s
  | .fmulD frd frs1 frs2 rm => Sys2Proof.Machine.execFmulD frd frs1 frs2 rm s
  | .fdivD frd frs1 frs2 rm => Sys2Proof.Machine.execFdivD frd frs1 frs2 rm s
  | .fsqrtD frd frs1 rm => Sys2Proof.Machine.execFsqrtD frd frs1 rm s
  | .fsgnjD frd frs1 frs2 => Sys2Proof.Machine.execFsgnjD frd frs1 frs2 s
  | .fsgnjnD frd frs1 frs2 => Sys2Proof.Machine.execFsgnjnD frd frs1 frs2 s
  | .fsgnjxD frd frs1 frs2 => Sys2Proof.Machine.execFsgnjxD frd frs1 frs2 s
  | .fminD frd frs1 frs2 => Sys2Proof.Machine.execFminD frd frs1 frs2 s
  | .fmaxD frd frs1 frs2 => Sys2Proof.Machine.execFmaxD frd frs1 frs2 s
  | .fcvtSD frd frs1 rm => Sys2Proof.Machine.execFcvtSD frd frs1 rm s
  | .fcvtDS frd frs1 rm => Sys2Proof.Machine.execFcvtDS frd frs1 rm s
  | .feqD rd frs1 frs2 => Sys2Proof.Machine.execFeqD rd frs1 frs2 s
  | .fltD rd frs1 frs2 => Sys2Proof.Machine.execFltD rd frs1 frs2 s
  | .fleD rd frs1 frs2 => Sys2Proof.Machine.execFleD rd frs1 frs2 s
  | .fclassD rd frs1 => Sys2Proof.Machine.execFclassD rd frs1 s
  | .fcvtWD rd frs1 rm => Sys2Proof.Machine.execFcvtWD rd frs1 rm s
  | .fcvtWUD rd frs1 rm => Sys2Proof.Machine.execFcvtWUD rd frs1 rm s
  | .fcvtLD rd frs1 rm => Sys2Proof.Machine.execFcvtLD rd frs1 rm s
  | .fcvtLUD rd frs1 rm => Sys2Proof.Machine.execFcvtLUD rd frs1 rm s
  | .fmvXD rd frs1 => Sys2Proof.Machine.execFmvXD rd frs1 s
  | .fcvtDW frd rs1 rm => Sys2Proof.Machine.execFcvtDW frd rs1 rm s
  | .fcvtDWU frd rs1 rm => Sys2Proof.Machine.execFcvtDWU frd rs1 rm s
  | .fcvtDL frd rs1 rm => Sys2Proof.Machine.execFcvtDL frd rs1 rm s
  | .fcvtDLU frd rs1 rm => Sys2Proof.Machine.execFcvtDLU frd rs1 rm s
  | .fmvDX frd rs1 => Sys2Proof.Machine.execFmvDX frd rs1 s
  -- RV64C
  | .cAddi4spn rd nzuimm => Sys2Proof.Machine.execCAddi4spn rd nzuimm s
  | .cFld frd rs1 uimm => Sys2Proof.Machine.execCFld frd rs1 uimm s
  | .cLw rd rs1 uimm => Sys2Proof.Machine.execCLw rd rs1 uimm s
  | .cLd rd rs1 uimm => Sys2Proof.Machine.execCLd rd rs1 uimm s
  | .cFsd frs2 rs1 uimm => Sys2Proof.Machine.execCFsd frs2 rs1 uimm s
  | .cSw rs2 rs1 uimm => Sys2Proof.Machine.execCSw rs2 rs1 uimm s
  | .cSd rs2 rs1 uimm => Sys2Proof.Machine.execCSd rs2 rs1 uimm s
  | .cNop imm => Sys2Proof.Machine.execCNop imm s
  | .cAddi rd imm => Sys2Proof.Machine.execCAddi rd imm s
  | .cAddiw rd imm => Sys2Proof.Machine.execCAddiw rd imm s
  | .cLi rd imm => Sys2Proof.Machine.execCLi rd imm s
  | .cAddi16sp nzimm => Sys2Proof.Machine.execCAddi16sp nzimm s
  | .cLui rd nzimm => Sys2Proof.Machine.execCLui rd nzimm s
  | .cSrli rd shamt => Sys2Proof.Machine.execCSrli rd shamt s
  | .cSrai rd shamt => Sys2Proof.Machine.execCSrai rd shamt s
  | .cAndi rd imm => Sys2Proof.Machine.execCAndi rd imm s
  | .cSub rd rs2 => Sys2Proof.Machine.execCSub rd rs2 s
  | .cXor rd rs2 => Sys2Proof.Machine.execCXor rd rs2 s
  | .cOr rd rs2 => Sys2Proof.Machine.execCOr rd rs2 s
  | .cAnd rd rs2 => Sys2Proof.Machine.execCAnd rd rs2 s
  | .cSubw rd rs2 => Sys2Proof.Machine.execCSubw rd rs2 s
  | .cAddw rd rs2 => Sys2Proof.Machine.execCAddw rd rs2 s
  | .cJ offset => Sys2Proof.Machine.execCJ offset s
  | .cBeqz rs1 offset => Sys2Proof.Machine.execCBeqz rs1 offset s
  | .cBnez rs1 offset => Sys2Proof.Machine.execCBnez rs1 offset s
  | .cSlli rd shamt => Sys2Proof.Machine.execCSlli rd shamt s
  | .cFldsp frd uimm => Sys2Proof.Machine.execCFldsp frd uimm s
  | .cLwsp rd uimm => Sys2Proof.Machine.execCLwsp rd uimm s
  | .cLdsp rd uimm => Sys2Proof.Machine.execCLdsp rd uimm s
  | .cJr rs1 => Sys2Proof.Machine.execCJr rs1 s
  | .cMv rd rs2 => Sys2Proof.Machine.execCMv rd rs2 s
  | .cEbreak => Sys2Proof.Machine.execCEbreak s
  | .cJalr rs1 => Sys2Proof.Machine.execCJalr rs1 s
  | .cAdd rd rs2 => Sys2Proof.Machine.execCAdd rd rs2 s
  | .cFsdsp frs2 uimm => Sys2Proof.Machine.execCFsdsp frs2 uimm s
  | .cSwsp rs2 uimm => Sys2Proof.Machine.execCSwsp rs2 uimm s
  | .cSdsp rs2 uimm => Sys2Proof.Machine.execCSdsp rs2 uimm s

end Sys2Proof.Machine
end

