-- ==== Sys2Proof/WellFormed.lean ====
section
/-! DEFINITION. The instructions an encoding can spell: the operand constraints of R158, R160, R170 to R182, R199 to
R201 and R215. What the field types already say (a 12-bit immediate, a legal rm, an existing CSR) is not said again. -/

namespace Sys2Proof

/-- A register a 3-bit compressed field names: 8 to 15 (R158). -/
def isRvc (r : BitVec 5) : Bool := r.extractLsb 4 3 == 1#2

/-- The `k` low bits of an immediate, which no piece of the encoding supplies, are 0 (R160). -/
def lowZero {n : Nat} (v : BitVec n) (k : Nat) : Bool := v.extractLsb' 0 k == 0#k

/-- An instruction that some word of the opcode table encodes. -/
def Instr.wf : Instr → Bool
  | .lui .. => true
  | .auipc .. => true
  | .jal _ offset => lowZero offset 1
  | .jalr .. => true
  | .beq _ _ offset => lowZero offset 1
  | .bne _ _ offset => lowZero offset 1
  | .blt _ _ offset => lowZero offset 1
  | .bge _ _ offset => lowZero offset 1
  | .bltu _ _ offset => lowZero offset 1
  | .bgeu _ _ offset => lowZero offset 1
  | .lb .. => true
  | .lh .. => true
  | .lw .. => true
  | .ld .. => true
  | .lbu .. => true
  | .lhu .. => true
  | .lwu .. => true
  | .sb .. => true
  | .sh .. => true
  | .sw .. => true
  | .sd .. => true
  | .addi .. => true
  | .slti .. => true
  | .sltiu .. => true
  | .xori .. => true
  | .ori .. => true
  | .andi .. => true
  | .slli .. => true
  | .srli .. => true
  | .srai .. => true
  | .add .. => true
  | .sub .. => true
  | .sll .. => true
  | .slt .. => true
  | .sltu .. => true
  | .xor .. => true
  | .srl .. => true
  | .sra .. => true
  | .or .. => true
  | .and .. => true
  | .fence .. => true
  | .fenceI .. => true
  | .ecall => true
  | .ebreak => true
  | .addiw .. => true
  | .slliw .. => true
  | .srliw .. => true
  | .sraiw .. => true
  | .addw .. => true
  | .subw .. => true
  | .sllw .. => true
  | .srlw .. => true
  | .sraw .. => true
  | .mul .. => true
  | .mulh .. => true
  | .mulhsu .. => true
  | .mulhu .. => true
  | .div .. => true
  | .divu .. => true
  | .rem .. => true
  | .remu .. => true
  | .mulw .. => true
  | .divw .. => true
  | .divuw .. => true
  | .remw .. => true
  | .remuw .. => true
  | .lrW .. => true
  | .scW .. => true
  | .lrD .. => true
  | .scD .. => true
  | .amoswapW .. => true
  | .amoaddW .. => true
  | .amoxorW .. => true
  | .amoandW .. => true
  | .amoorW .. => true
  | .amominW .. => true
  | .amomaxW .. => true
  | .amominuW .. => true
  | .amomaxuW .. => true
  | .amoswapD .. => true
  | .amoaddD .. => true
  | .amoxorD .. => true
  | .amoandD .. => true
  | .amoorD .. => true
  | .amominD .. => true
  | .amomaxD .. => true
  | .amominuD .. => true
  | .amomaxuD .. => true
  | .csrrw .. => true
  | .csrrs .. => true
  | .csrrc .. => true
  | .csrrwi .. => true
  | .csrrsi .. => true
  | .csrrci .. => true
  | .flw .. => true
  | .fsw .. => true
  | .fmaddS .. => true
  | .fmsubS .. => true
  | .fnmsubS .. => true
  | .fnmaddS .. => true
  | .faddS .. => true
  | .fsubS .. => true
  | .fmulS .. => true
  | .fdivS .. => true
  | .fsqrtS .. => true
  | .fsgnjS .. => true
  | .fsgnjnS .. => true
  | .fsgnjxS .. => true
  | .fminS .. => true
  | .fmaxS .. => true
  | .fcvtWS .. => true
  | .fcvtWUS .. => true
  | .fcvtLS .. => true
  | .fcvtLUS .. => true
  | .fmvXW .. => true
  | .feqS .. => true
  | .fltS .. => true
  | .fleS .. => true
  | .fclassS .. => true
  | .fcvtSW .. => true
  | .fcvtSWU .. => true
  | .fcvtSL .. => true
  | .fcvtSLU .. => true
  | .fmvWX .. => true
  | .fld .. => true
  | .fsd .. => true
  | .fmaddD .. => true
  | .fmsubD .. => true
  | .fnmsubD .. => true
  | .fnmaddD .. => true
  | .faddD .. => true
  | .fsubD .. => true
  | .fmulD .. => true
  | .fdivD .. => true
  | .fsqrtD .. => true
  | .fsgnjD .. => true
  | .fsgnjnD .. => true
  | .fsgnjxD .. => true
  | .fminD .. => true
  | .fmaxD .. => true
  | .fcvtSD .. => true
  | .fcvtDS .. => true
  | .feqD .. => true
  | .fltD .. => true
  | .fleD .. => true
  | .fclassD .. => true
  | .fcvtWD .. => true
  | .fcvtWUD .. => true
  | .fcvtLD .. => true
  | .fcvtLUD .. => true
  | .fmvXD .. => true
  | .fcvtDW .. => true
  | .fcvtDWU .. => true
  | .fcvtDL .. => true
  | .fcvtDLU .. => true
  | .fmvDX .. => true
  | .cAddi4spn rd nzuimm => isRvc rd && lowZero nzuimm 2 && nzuimm != 0#10
  | .cFld frd rs1 uimm => isRvc frd && isRvc rs1 && lowZero uimm 3
  | .cLw rd rs1 uimm => isRvc rd && isRvc rs1 && lowZero uimm 2
  | .cLd rd rs1 uimm => isRvc rd && isRvc rs1 && lowZero uimm 3
  | .cFsd frs2 rs1 uimm => isRvc frs2 && isRvc rs1 && lowZero uimm 3
  | .cSw rs2 rs1 uimm => isRvc rs2 && isRvc rs1 && lowZero uimm 2
  | .cSd rs2 rs1 uimm => isRvc rs2 && isRvc rs1 && lowZero uimm 3
  | .cNop .. => true
  | .cAddi rd _ => rd != 0#5
  | .cAddiw rd _ => rd != 0#5
  | .cLi .. => true
  | .cAddi16sp nzimm => lowZero nzimm 4 && nzimm != 0#10
  | .cLui rd nzimm => rd != 2#5 && lowZero nzimm 12 && nzimm != 0#18
  | .cSrli rd _ => isRvc rd
  | .cSrai rd _ => isRvc rd
  | .cAndi rd _ => isRvc rd
  | .cSub rd rs2 => isRvc rd && isRvc rs2
  | .cXor rd rs2 => isRvc rd && isRvc rs2
  | .cOr rd rs2 => isRvc rd && isRvc rs2
  | .cAnd rd rs2 => isRvc rd && isRvc rs2
  | .cSubw rd rs2 => isRvc rd && isRvc rs2
  | .cAddw rd rs2 => isRvc rd && isRvc rs2
  | .cJ offset => lowZero offset 1
  | .cBeqz rs1 offset => isRvc rs1 && lowZero offset 1
  | .cBnez rs1 offset => isRvc rs1 && lowZero offset 1
  | .cSlli .. => true
  | .cFldsp _ uimm => lowZero uimm 3
  | .cLwsp rd uimm => rd != 0#5 && lowZero uimm 2
  | .cLdsp rd uimm => rd != 0#5 && lowZero uimm 3
  | .cJr rs1 => rs1 != 0#5
  | .cMv _ rs2 => rs2 != 0#5
  | .cEbreak => true
  | .cJalr rs1 => rs1 != 0#5
  | .cAdd _ rs2 => rs2 != 0#5
  | .cFsdsp _ uimm => lowZero uimm 3
  | .cSwsp _ uimm => lowZero uimm 2
  | .cSdsp _ uimm => lowZero uimm 3

end Sys2Proof
end

