-- ==== Sys2Proof/Decode.lean ====
section
/-! DEFINITION. From bits to instructions and back (R150 to R220): the field assemblies, the decoder, the encoder, and
the expansion of a compressed instruction into the 32-bit instruction it stands for (R700). `v.extractLsb' lo n` is the
spec's `v[lo+n-1:lo]`, and `a ++ b` its `{a, b}` (R18, R19). -/

namespace Sys2Proof

/-! ## Fields and immediates of 32-bit words (R154 to R169) -/

/-- `rd`, bits 11:7 (R154). -/
def rdField (w : BitVec 32) : BitVec 5 := w.extractLsb' 7 5

/-- `rs1`, bits 19:15 (R154); the same bits are a CSR instruction's uimm (R167). -/
def rs1Field (w : BitVec 32) : BitVec 5 := w.extractLsb' 15 5

/-- `rs2`, bits 24:20 (R154). -/
def rs2Field (w : BitVec 32) : BitVec 5 := w.extractLsb' 20 5

/-- `rs3`, bits 31:27 (R154, format R4). -/
def rs3Field (w : BitVec 32) : BitVec 5 := w.extractLsb' 27 5

/-- `funct3`, bits 14:12 (R154); the same bits are `rm` (R156). -/
def funct3Field (w : BitVec 32) : BitVec 3 := w.extractLsb' 12 3

/-- `funct7`, bits 31:25 (R154). -/
def funct7Field (w : BitVec 32) : BitVec 7 := w.extractLsb' 25 7

/-- I-immediate before extension (R161). -/
def immI (w : BitVec 32) : BitVec 12 := w.extractLsb' 20 12

/-- S-immediate before extension (R162). -/
def immS (w : BitVec 32) : BitVec 12 := w.extractLsb' 25 7 ++ w.extractLsb' 7 5

/-- Bits 31:12 of the U-immediate (R163). -/
def immU (w : BitVec 32) : BitVec 20 := w.extractLsb' 12 20

/-- B-immediate before extension (R164). -/
def immB (w : BitVec 32) : BitVec 13 :=
  w.extractLsb' 31 1 ++ w.extractLsb' 7 1 ++ w.extractLsb' 25 6 ++ w.extractLsb' 8 4 ++ 0#1

/-- J-immediate before extension (R165). -/
def immJ (w : BitVec 32) : BitVec 21 :=
  w.extractLsb' 31 1 ++ w.extractLsb' 12 8 ++ w.extractLsb' 20 1 ++ w.extractLsb' 21 10 ++ 0#1

/-- The `rm` field's value; 5 and 6 are reserved (R62, R403). -/
def Rm.ofBits (b : BitVec 3) : Option Rm :=
  match b with
  | 0b000#3 => some .rne
  | 0b001#3 => some .rtz
  | 0b010#3 => some .rdn
  | 0b011#3 => some .rup
  | 0b100#3 => some .rmm
  | 0b111#3 => some .dyn
  | _       => none

/-- The `rm` field of a rounding-mode name (R62). -/
def Rm.toBits : Rm → BitVec 3
  | .rne => 0b000#3
  | .rtz => 0b001#3
  | .rdn => 0b010#3
  | .rup => 0b011#3
  | .rmm => 0b100#3
  | .dyn => 0b111#3

/-- The CSR a number names (R65); every other number is no CSR (R659). -/
def Csr.ofNumber (n : BitVec 12) : Option Csr :=
  match n with
  | 0x001#12 => some .fflags
  | 0x002#12 => some .frm
  | 0x003#12 => some .fcsr
  | _        => none

/-- The number of a CSR (R65). -/
def Csr.number : Csr → BitVec 12
  | .fflags => 0x001#12
  | .frm    => 0x002#12
  | .fcsr   => 0x003#12

/-! ## Decoding 32-bit words (R190 to R198), one function for each major opcode -/

/-- LOAD, 0x03 (R191). -/
def decodeLoad (w : BitVec 32) : Option Instr :=
  match funct3Field w with
  | 0b000#3 => some (.lb (rdField w) (rs1Field w) (immI w))
  | 0b001#3 => some (.lh (rdField w) (rs1Field w) (immI w))
  | 0b010#3 => some (.lw (rdField w) (rs1Field w) (immI w))
  | 0b011#3 => some (.ld (rdField w) (rs1Field w) (immI w))
  | 0b100#3 => some (.lbu (rdField w) (rs1Field w) (immI w))
  | 0b101#3 => some (.lhu (rdField w) (rs1Field w) (immI w))
  | 0b110#3 => some (.lwu (rdField w) (rs1Field w) (immI w))
  | _ => none

/-- LOAD-FP, 0x07 (R191). -/
def decodeLoadFp (w : BitVec 32) : Option Instr :=
  match funct3Field w with
  | 0b010#3 => some (.flw (rdField w) (rs1Field w) (immI w))
  | 0b011#3 => some (.fld (rdField w) (rs1Field w) (immI w))
  | _ => none

/-- STORE, 0x23 (R191). -/
def decodeStore (w : BitVec 32) : Option Instr :=
  match funct3Field w with
  | 0b000#3 => some (.sb (rs2Field w) (rs1Field w) (immS w))
  | 0b001#3 => some (.sh (rs2Field w) (rs1Field w) (immS w))
  | 0b010#3 => some (.sw (rs2Field w) (rs1Field w) (immS w))
  | 0b011#3 => some (.sd (rs2Field w) (rs1Field w) (immS w))
  | _ => none

/-- STORE-FP, 0x27 (R191). -/
def decodeStoreFp (w : BitVec 32) : Option Instr :=
  match funct3Field w with
  | 0b010#3 => some (.fsw (rs2Field w) (rs1Field w) (immS w))
  | 0b011#3 => some (.fsd (rs2Field w) (rs1Field w) (immS w))
  | _ => none

/-- MISC-MEM, 0x0F (R195); every field but funct3 is kept and ignored (R168, R211). -/
def decodeMiscMem (w : BitVec 32) : Option Instr :=
  match funct3Field w with
  | 0b000#3 => some (.fence (w.extractLsb' 28 4) (w.extractLsb' 24 4) (w.extractLsb' 20 4) (rs1Field w) (rdField w))
  | 0b001#3 => some (.fenceI (immI w) (rs1Field w) (rdField w))
  | _ => none

/-- OP-IMM, 0x13 (R192); the shift amount is 6 bits (R166). -/
def decodeOpImm (w : BitVec 32) : Option Instr :=
  match funct3Field w with
  | 0b000#3 => some (.addi (rdField w) (rs1Field w) (immI w))
  | 0b001#3 => match w.extractLsb' 26 6 with
    | 0b000000#6 => some (.slli (rdField w) (rs1Field w) (w.extractLsb' 20 6))
    | _ => none
  | 0b010#3 => some (.slti (rdField w) (rs1Field w) (immI w))
  | 0b011#3 => some (.sltiu (rdField w) (rs1Field w) (immI w))
  | 0b100#3 => some (.xori (rdField w) (rs1Field w) (immI w))
  | 0b101#3 => match w.extractLsb' 26 6 with
    | 0b000000#6 => some (.srli (rdField w) (rs1Field w) (w.extractLsb' 20 6))
    | 0b010000#6 => some (.srai (rdField w) (rs1Field w) (w.extractLsb' 20 6))
    | _ => none
  | 0b110#3 => some (.ori (rdField w) (rs1Field w) (immI w))
  | 0b111#3 => some (.andi (rdField w) (rs1Field w) (immI w))
  | _ => none

/-- OP-IMM-32, 0x1B (R192); the shift amount is 5 bits (R166). -/
def decodeOpImm32 (w : BitVec 32) : Option Instr :=
  match funct3Field w with
  | 0b000#3 => some (.addiw (rdField w) (rs1Field w) (immI w))
  | 0b001#3 => match funct7Field w with
    | 0b0000000#7 => some (.slliw (rdField w) (rs1Field w) (rs2Field w))
    | _ => none
  | 0b101#3 => match funct7Field w with
    | 0b0000000#7 => some (.srliw (rdField w) (rs1Field w) (rs2Field w))
    | 0b0100000#7 => some (.sraiw (rdField w) (rs1Field w) (rs2Field w))
    | _ => none
  | _ => none

/-- OP, 0x33 (R193). -/
def decodeOp (w : BitVec 32) : Option Instr :=
  match funct7Field w with
  | 0b0000000#7 =>
    match funct3Field w with
    | 0b000#3 => some (.add (rdField w) (rs1Field w) (rs2Field w))
    | 0b001#3 => some (.sll (rdField w) (rs1Field w) (rs2Field w))
    | 0b010#3 => some (.slt (rdField w) (rs1Field w) (rs2Field w))
    | 0b011#3 => some (.sltu (rdField w) (rs1Field w) (rs2Field w))
    | 0b100#3 => some (.xor (rdField w) (rs1Field w) (rs2Field w))
    | 0b101#3 => some (.srl (rdField w) (rs1Field w) (rs2Field w))
    | 0b110#3 => some (.or (rdField w) (rs1Field w) (rs2Field w))
    | 0b111#3 => some (.and (rdField w) (rs1Field w) (rs2Field w))
    | _ => none
  | 0b0100000#7 =>
    match funct3Field w with
    | 0b000#3 => some (.sub (rdField w) (rs1Field w) (rs2Field w))
    | 0b101#3 => some (.sra (rdField w) (rs1Field w) (rs2Field w))
    | _ => none
  | 0b0000001#7 =>
    match funct3Field w with
    | 0b000#3 => some (.mul (rdField w) (rs1Field w) (rs2Field w))
    | 0b001#3 => some (.mulh (rdField w) (rs1Field w) (rs2Field w))
    | 0b010#3 => some (.mulhsu (rdField w) (rs1Field w) (rs2Field w))
    | 0b011#3 => some (.mulhu (rdField w) (rs1Field w) (rs2Field w))
    | 0b100#3 => some (.div (rdField w) (rs1Field w) (rs2Field w))
    | 0b101#3 => some (.divu (rdField w) (rs1Field w) (rs2Field w))
    | 0b110#3 => some (.rem (rdField w) (rs1Field w) (rs2Field w))
    | 0b111#3 => some (.remu (rdField w) (rs1Field w) (rs2Field w))
    | _ => none
  | _ => none

/-- OP-32, 0x3B (R193). -/
def decodeOp32 (w : BitVec 32) : Option Instr :=
  match funct7Field w with
  | 0b0000000#7 =>
    match funct3Field w with
    | 0b000#3 => some (.addw (rdField w) (rs1Field w) (rs2Field w))
    | 0b001#3 => some (.sllw (rdField w) (rs1Field w) (rs2Field w))
    | 0b101#3 => some (.srlw (rdField w) (rs1Field w) (rs2Field w))
    | _ => none
  | 0b0100000#7 =>
    match funct3Field w with
    | 0b000#3 => some (.subw (rdField w) (rs1Field w) (rs2Field w))
    | 0b101#3 => some (.sraw (rdField w) (rs1Field w) (rs2Field w))
    | _ => none
  | 0b0000001#7 =>
    match funct3Field w with
    | 0b000#3 => some (.mulw (rdField w) (rs1Field w) (rs2Field w))
    | 0b100#3 => some (.divw (rdField w) (rs1Field w) (rs2Field w))
    | 0b101#3 => some (.divuw (rdField w) (rs1Field w) (rs2Field w))
    | 0b110#3 => some (.remw (rdField w) (rs1Field w) (rs2Field w))
    | 0b111#3 => some (.remuw (rdField w) (rs1Field w) (rs2Field w))
    | _ => none
  | _ => none

/-- BRANCH, 0x63 (R194). -/
def decodeBranch (w : BitVec 32) : Option Instr :=
  match funct3Field w with
  | 0b000#3 => some (.beq (rs1Field w) (rs2Field w) (immB w))
  | 0b001#3 => some (.bne (rs1Field w) (rs2Field w) (immB w))
  | 0b100#3 => some (.blt (rs1Field w) (rs2Field w) (immB w))
  | 0b101#3 => some (.bge (rs1Field w) (rs2Field w) (immB w))
  | 0b110#3 => some (.bltu (rs1Field w) (rs2Field w) (immB w))
  | 0b111#3 => some (.bgeu (rs1Field w) (rs2Field w) (immB w))
  | _ => none

/-- JALR, 0x67 (R194). -/
def decodeJalr (w : BitVec 32) : Option Instr :=
  match funct3Field w with
  | 0b000#3 => some (.jalr (rdField w) (rs1Field w) (immI w))
  | _ => none

/-- SYSTEM, 0x73 (R195): funct3 000 is ECALL or EBREAK as a whole word; a CSR number other than 1 to 3 is none (R659). -/
def decodeSystem (w : BitVec 32) : Option Instr :=
  match funct3Field w with
  | 0b000#3 => 
    match w with
    | 0x00000073#32 => some .ecall
    | 0x00100073#32 => some .ebreak
    | _ => none
  | 0b001#3 => (Csr.ofNumber (immI w)).map fun c => .csrrw (rdField w) c (rs1Field w)
  | 0b010#3 => (Csr.ofNumber (immI w)).map fun c => .csrrs (rdField w) c (rs1Field w)
  | 0b011#3 => (Csr.ofNumber (immI w)).map fun c => .csrrc (rdField w) c (rs1Field w)
  | 0b101#3 => (Csr.ofNumber (immI w)).map fun c => .csrrwi (rdField w) c (rs1Field w)
  | 0b110#3 => (Csr.ofNumber (immI w)).map fun c => .csrrsi (rdField w) c (rs1Field w)
  | 0b111#3 => (Csr.ofNumber (immI w)).map fun c => .csrrci (rdField w) c (rs1Field w)
  | _ => none

/-- AMO, 0x2F (R196): width in funct3, aq in bit 26, rl in bit 25 (R169). -/
def decodeAmo (w : BitVec 32) : Option Instr :=
  match funct3Field w with
  | 0b010#3 =>
    match w.extractLsb' 27 5 with
    | 0b00010#5 => if rs2Field w = 0#5 then some (.lrW (rdField w) (rs1Field w) (w.getLsbD 26) (w.getLsbD 25)) else none
    | 0b00011#5 => some (.scW (rdField w) (rs1Field w) (rs2Field w) (w.getLsbD 26) (w.getLsbD 25))
    | 0b00001#5 => some (.amoswapW (rdField w) (rs1Field w) (rs2Field w) (w.getLsbD 26) (w.getLsbD 25))
    | 0b00000#5 => some (.amoaddW (rdField w) (rs1Field w) (rs2Field w) (w.getLsbD 26) (w.getLsbD 25))
    | 0b00100#5 => some (.amoxorW (rdField w) (rs1Field w) (rs2Field w) (w.getLsbD 26) (w.getLsbD 25))
    | 0b01100#5 => some (.amoandW (rdField w) (rs1Field w) (rs2Field w) (w.getLsbD 26) (w.getLsbD 25))
    | 0b01000#5 => some (.amoorW (rdField w) (rs1Field w) (rs2Field w) (w.getLsbD 26) (w.getLsbD 25))
    | 0b10000#5 => some (.amominW (rdField w) (rs1Field w) (rs2Field w) (w.getLsbD 26) (w.getLsbD 25))
    | 0b10100#5 => some (.amomaxW (rdField w) (rs1Field w) (rs2Field w) (w.getLsbD 26) (w.getLsbD 25))
    | 0b11000#5 => some (.amominuW (rdField w) (rs1Field w) (rs2Field w) (w.getLsbD 26) (w.getLsbD 25))
    | 0b11100#5 => some (.amomaxuW (rdField w) (rs1Field w) (rs2Field w) (w.getLsbD 26) (w.getLsbD 25))
    | _ => none
  | 0b011#3 =>
    match w.extractLsb' 27 5 with
    | 0b00010#5 => if rs2Field w = 0#5 then some (.lrD (rdField w) (rs1Field w) (w.getLsbD 26) (w.getLsbD 25)) else none
    | 0b00011#5 => some (.scD (rdField w) (rs1Field w) (rs2Field w) (w.getLsbD 26) (w.getLsbD 25))
    | 0b00001#5 => some (.amoswapD (rdField w) (rs1Field w) (rs2Field w) (w.getLsbD 26) (w.getLsbD 25))
    | 0b00000#5 => some (.amoaddD (rdField w) (rs1Field w) (rs2Field w) (w.getLsbD 26) (w.getLsbD 25))
    | 0b00100#5 => some (.amoxorD (rdField w) (rs1Field w) (rs2Field w) (w.getLsbD 26) (w.getLsbD 25))
    | 0b01100#5 => some (.amoandD (rdField w) (rs1Field w) (rs2Field w) (w.getLsbD 26) (w.getLsbD 25))
    | 0b01000#5 => some (.amoorD (rdField w) (rs1Field w) (rs2Field w) (w.getLsbD 26) (w.getLsbD 25))
    | 0b10000#5 => some (.amominD (rdField w) (rs1Field w) (rs2Field w) (w.getLsbD 26) (w.getLsbD 25))
    | 0b10100#5 => some (.amomaxD (rdField w) (rs1Field w) (rs2Field w) (w.getLsbD 26) (w.getLsbD 25))
    | 0b11000#5 => some (.amominuD (rdField w) (rs1Field w) (rs2Field w) (w.getLsbD 26) (w.getLsbD 25))
    | 0b11100#5 => some (.amomaxuD (rdField w) (rs1Field w) (rs2Field w) (w.getLsbD 26) (w.getLsbD 25))
    | _ => none
  | _ => none

/-- FMADD, 0x43 (R197): the format is in bits 26:25, 00 S and 01 D. -/
def decodeMadd (w : BitVec 32) : Option Instr :=
  match w.extractLsb' 25 2 with
  | 0b00#2 => (Rm.ofBits (funct3Field w)).map fun rm => .fmaddS (rdField w) (rs1Field w) (rs2Field w) (rs3Field w) rm
  | 0b01#2 => (Rm.ofBits (funct3Field w)).map fun rm => .fmaddD (rdField w) (rs1Field w) (rs2Field w) (rs3Field w) rm
  | _ => none

/-- FMSUB, 0x47 (R197): the format is in bits 26:25, 00 S and 01 D. -/
def decodeMsub (w : BitVec 32) : Option Instr :=
  match w.extractLsb' 25 2 with
  | 0b00#2 => (Rm.ofBits (funct3Field w)).map fun rm => .fmsubS (rdField w) (rs1Field w) (rs2Field w) (rs3Field w) rm
  | 0b01#2 => (Rm.ofBits (funct3Field w)).map fun rm => .fmsubD (rdField w) (rs1Field w) (rs2Field w) (rs3Field w) rm
  | _ => none

/-- FNMSUB, 0x4B (R197): the format is in bits 26:25, 00 S and 01 D. -/
def decodeNmsub (w : BitVec 32) : Option Instr :=
  match w.extractLsb' 25 2 with
  | 0b00#2 => (Rm.ofBits (funct3Field w)).map fun rm => .fnmsubS (rdField w) (rs1Field w) (rs2Field w) (rs3Field w) rm
  | 0b01#2 => (Rm.ofBits (funct3Field w)).map fun rm => .fnmsubD (rdField w) (rs1Field w) (rs2Field w) (rs3Field w) rm
  | _ => none

/-- FNMADD, 0x4F (R197): the format is in bits 26:25, 00 S and 01 D. -/
def decodeNmadd (w : BitVec 32) : Option Instr :=
  match w.extractLsb' 25 2 with
  | 0b00#2 => (Rm.ofBits (funct3Field w)).map fun rm => .fnmaddS (rdField w) (rs1Field w) (rs2Field w) (rs3Field w) rm
  | 0b01#2 => (Rm.ofBits (funct3Field w)).map fun rm => .fnmaddD (rdField w) (rs1Field w) (rs2Field w) (rs3Field w) rm
  | _ => none

/-- OP-FP, 0x53 (R198): by funct7, then rs2 or funct3; rm 5 and 6 are none (R403). -/
def decodeOpFp (w : BitVec 32) : Option Instr :=
  match funct7Field w with
  | 0b0000000#7 => (Rm.ofBits (funct3Field w)).map fun rm => .faddS (rdField w) (rs1Field w) (rs2Field w) rm
  | 0b0000100#7 => (Rm.ofBits (funct3Field w)).map fun rm => .fsubS (rdField w) (rs1Field w) (rs2Field w) rm
  | 0b0001000#7 => (Rm.ofBits (funct3Field w)).map fun rm => .fmulS (rdField w) (rs1Field w) (rs2Field w) rm
  | 0b0001100#7 => (Rm.ofBits (funct3Field w)).map fun rm => .fdivS (rdField w) (rs1Field w) (rs2Field w) rm
  | 0b0101100#7 => if rs2Field w = 0#5 then (Rm.ofBits (funct3Field w)).map fun rm => .fsqrtS (rdField w) (rs1Field w) rm else none
  | 0b0010000#7 => 
    match funct3Field w with
    | 0b000#3 => some (.fsgnjS (rdField w) (rs1Field w) (rs2Field w))
    | 0b001#3 => some (.fsgnjnS (rdField w) (rs1Field w) (rs2Field w))
    | 0b010#3 => some (.fsgnjxS (rdField w) (rs1Field w) (rs2Field w))
    | _ => none
  | 0b0010100#7 => 
    match funct3Field w with
    | 0b000#3 => some (.fminS (rdField w) (rs1Field w) (rs2Field w))
    | 0b001#3 => some (.fmaxS (rdField w) (rs1Field w) (rs2Field w))
    | _ => none
  | 0b0100000#7 => if rs2Field w = 1#5 then (Rm.ofBits (funct3Field w)).map fun rm => .fcvtSD (rdField w) (rs1Field w) rm else none
  | 0b1010000#7 => 
    match funct3Field w with
    | 0b010#3 => some (.feqS (rdField w) (rs1Field w) (rs2Field w))
    | 0b001#3 => some (.fltS (rdField w) (rs1Field w) (rs2Field w))
    | 0b000#3 => some (.fleS (rdField w) (rs1Field w) (rs2Field w))
    | _ => none
  | 0b1100000#7 => 
    match rs2Field w with
    | 0b00000#5 => (Rm.ofBits (funct3Field w)).map fun rm => .fcvtWS (rdField w) (rs1Field w) rm
    | 0b00001#5 => (Rm.ofBits (funct3Field w)).map fun rm => .fcvtWUS (rdField w) (rs1Field w) rm
    | 0b00010#5 => (Rm.ofBits (funct3Field w)).map fun rm => .fcvtLS (rdField w) (rs1Field w) rm
    | 0b00011#5 => (Rm.ofBits (funct3Field w)).map fun rm => .fcvtLUS (rdField w) (rs1Field w) rm
    | _ => none
  | 0b1101000#7 => 
    match rs2Field w with
    | 0b00000#5 => (Rm.ofBits (funct3Field w)).map fun rm => .fcvtSW (rdField w) (rs1Field w) rm
    | 0b00001#5 => (Rm.ofBits (funct3Field w)).map fun rm => .fcvtSWU (rdField w) (rs1Field w) rm
    | 0b00010#5 => (Rm.ofBits (funct3Field w)).map fun rm => .fcvtSL (rdField w) (rs1Field w) rm
    | 0b00011#5 => (Rm.ofBits (funct3Field w)).map fun rm => .fcvtSLU (rdField w) (rs1Field w) rm
    | _ => none
  | 0b1110000#7 => if rs2Field w = 0#5 then
      match funct3Field w with
      | 0b000#3 => some (.fmvXW (rdField w) (rs1Field w))
      | 0b001#3 => some (.fclassS (rdField w) (rs1Field w))
      | _ => none
    else none
  | 0b1111000#7 => if rs2Field w = 0#5 ∧ funct3Field w = 0#3 then some (.fmvWX (rdField w) (rs1Field w)) else none
  | 0b0000001#7 => (Rm.ofBits (funct3Field w)).map fun rm => .faddD (rdField w) (rs1Field w) (rs2Field w) rm
  | 0b0000101#7 => (Rm.ofBits (funct3Field w)).map fun rm => .fsubD (rdField w) (rs1Field w) (rs2Field w) rm
  | 0b0001001#7 => (Rm.ofBits (funct3Field w)).map fun rm => .fmulD (rdField w) (rs1Field w) (rs2Field w) rm
  | 0b0001101#7 => (Rm.ofBits (funct3Field w)).map fun rm => .fdivD (rdField w) (rs1Field w) (rs2Field w) rm
  | 0b0101101#7 => if rs2Field w = 0#5 then (Rm.ofBits (funct3Field w)).map fun rm => .fsqrtD (rdField w) (rs1Field w) rm else none
  | 0b0010001#7 => 
    match funct3Field w with
    | 0b000#3 => some (.fsgnjD (rdField w) (rs1Field w) (rs2Field w))
    | 0b001#3 => some (.fsgnjnD (rdField w) (rs1Field w) (rs2Field w))
    | 0b010#3 => some (.fsgnjxD (rdField w) (rs1Field w) (rs2Field w))
    | _ => none
  | 0b0010101#7 => 
    match funct3Field w with
    | 0b000#3 => some (.fminD (rdField w) (rs1Field w) (rs2Field w))
    | 0b001#3 => some (.fmaxD (rdField w) (rs1Field w) (rs2Field w))
    | _ => none
  | 0b0100001#7 => if rs2Field w = 0#5 then (Rm.ofBits (funct3Field w)).map fun rm => .fcvtDS (rdField w) (rs1Field w) rm else none
  | 0b1010001#7 => 
    match funct3Field w with
    | 0b010#3 => some (.feqD (rdField w) (rs1Field w) (rs2Field w))
    | 0b001#3 => some (.fltD (rdField w) (rs1Field w) (rs2Field w))
    | 0b000#3 => some (.fleD (rdField w) (rs1Field w) (rs2Field w))
    | _ => none
  | 0b1100001#7 => 
    match rs2Field w with
    | 0b00000#5 => (Rm.ofBits (funct3Field w)).map fun rm => .fcvtWD (rdField w) (rs1Field w) rm
    | 0b00001#5 => (Rm.ofBits (funct3Field w)).map fun rm => .fcvtWUD (rdField w) (rs1Field w) rm
    | 0b00010#5 => (Rm.ofBits (funct3Field w)).map fun rm => .fcvtLD (rdField w) (rs1Field w) rm
    | 0b00011#5 => (Rm.ofBits (funct3Field w)).map fun rm => .fcvtLUD (rdField w) (rs1Field w) rm
    | _ => none
  | 0b1101001#7 => 
    match rs2Field w with
    | 0b00000#5 => (Rm.ofBits (funct3Field w)).map fun rm => .fcvtDW (rdField w) (rs1Field w) rm
    | 0b00001#5 => (Rm.ofBits (funct3Field w)).map fun rm => .fcvtDWU (rdField w) (rs1Field w) rm
    | 0b00010#5 => (Rm.ofBits (funct3Field w)).map fun rm => .fcvtDL (rdField w) (rs1Field w) rm
    | 0b00011#5 => (Rm.ofBits (funct3Field w)).map fun rm => .fcvtDLU (rdField w) (rs1Field w) rm
    | _ => none
  | 0b1110001#7 => if rs2Field w = 0#5 then
      match funct3Field w with
      | 0b000#3 => some (.fmvXD (rdField w) (rs1Field w))
      | 0b001#3 => some (.fclassD (rdField w) (rs1Field w))
      | _ => none
    else none
  | 0b1111001#7 => if rs2Field w = 0#5 ∧ funct3Field w = 0#3 then some (.fmvDX (rdField w) (rs1Field w)) else none
  | _ => none

/-- The instruction a 32-bit word spells, by its major opcode (R190); `none` where no row matches (R153, R210). -/
def decode32 (w : BitVec 32) : Option Instr :=
  match w.extractLsb' 0 7 with
  | 0x03#7 => decodeLoad w
  | 0x07#7 => decodeLoadFp w
  | 0x0F#7 => decodeMiscMem w
  | 0x13#7 => decodeOpImm w
  | 0x17#7 => some (.auipc (rdField w) (immU w))
  | 0x1B#7 => decodeOpImm32 w
  | 0x23#7 => decodeStore w
  | 0x27#7 => decodeStoreFp w
  | 0x2F#7 => decodeAmo w
  | 0x33#7 => decodeOp w
  | 0x37#7 => some (.lui (rdField w) (immU w))
  | 0x3B#7 => decodeOp32 w
  | 0x43#7 => decodeMadd w
  | 0x47#7 => decodeMsub w
  | 0x4B#7 => decodeNmsub w
  | 0x4F#7 => decodeNmadd w
  | 0x53#7 => decodeOpFp w
  | 0x63#7 => decodeBranch w
  | 0x67#7 => decodeJalr w
  | 0x6F#7 => some (.jal (rdField w) (immJ w))
  | 0x73#7 => decodeSystem w
  | _ => none

/-! ## Fields and immediates of 16-bit words (R157, R158, R170 to R182) -/

/-- The register a 3-bit field names: 8 + field (R158). -/
def rvcReg (r : BitVec 3) : BitVec 5 := 0b01#2 ++ r

/-- The register of bits 4:2: rd' of CIW and CL, rs2' of CS and CA (R157). -/
def lowReg (w : BitVec 16) : BitVec 5 := rvcReg (w.extractLsb' 2 3)

/-- The register of bits 9:7: rs1' of CL, CS and CB, rd'/rs1' of CA and CB-alu (R157). -/
def midReg (w : BitVec 16) : BitVec 5 := rvcReg (w.extractLsb' 7 3)

/-- The 5-bit register of bits 11:7: rd/rs1 of CR and CI (R157). -/
def crdField (w : BitVec 16) : BitVec 5 := w.extractLsb' 7 5

/-- The 5-bit register of bits 6:2: rs2 of CR and CSS (R157). -/
def crs2Field (w : BitVec 16) : BitVec 5 := w.extractLsb' 2 5

/-- C.ADDI4SPN, nzuimm (R170). -/
def immCiw (w : BitVec 16) : BitVec 10 :=
  w.extractLsb' 7 4 ++ w.extractLsb' 11 2 ++ w.extractLsb' 5 1 ++ w.extractLsb' 6 1 ++ 0#2

/-- C.LW and C.SW, uimm (R171). -/
def immClw (w : BitVec 16) : BitVec 7 :=
  w.extractLsb' 5 1 ++ w.extractLsb' 10 3 ++ w.extractLsb' 6 1 ++ 0#2

/-- C.LD, C.SD, C.FLD and C.FSD, uimm (R172). -/
def immCld (w : BitVec 16) : BitVec 8 :=
  w.extractLsb' 5 2 ++ w.extractLsb' 10 3 ++ 0#3

/-- The 6-bit immediate of C.ADDI, C.ADDIW, C.LI and C.ANDI (R173), and the shift amount of C.SLLI, C.SRLI and C.SRAI (R176). -/
def immCi (w : BitVec 16) : BitVec 6 :=
  w.extractLsb' 12 1 ++ w.extractLsb' 2 5

/-- C.ADDI16SP, nzimm (R174). -/
def immCaddi16sp (w : BitVec 16) : BitVec 10 :=
  w.extractLsb' 12 1 ++ w.extractLsb' 3 2 ++ w.extractLsb' 5 1 ++ w.extractLsb' 2 1 ++ w.extractLsb' 6 1 ++ 0#4

/-- C.LUI, nzimm (R175). -/
def immClui (w : BitVec 16) : BitVec 18 :=
  w.extractLsb' 12 1 ++ w.extractLsb' 2 5 ++ 0#12

/-- C.LWSP, uimm (R177). -/
def immClwsp (w : BitVec 16) : BitVec 8 :=
  w.extractLsb' 2 2 ++ w.extractLsb' 12 1 ++ w.extractLsb' 4 3 ++ 0#2

/-- C.LDSP and C.FLDSP, uimm (R178). -/
def immCldsp (w : BitVec 16) : BitVec 9 :=
  w.extractLsb' 2 3 ++ w.extractLsb' 12 1 ++ w.extractLsb' 5 2 ++ 0#3

/-- C.SWSP, uimm (R179). -/
def immCswsp (w : BitVec 16) : BitVec 8 :=
  w.extractLsb' 7 2 ++ w.extractLsb' 9 4 ++ 0#2

/-- C.SDSP and C.FSDSP, uimm (R180). -/
def immCsdsp (w : BitVec 16) : BitVec 9 :=
  w.extractLsb' 7 3 ++ w.extractLsb' 10 3 ++ 0#3

/-- C.BEQZ and C.BNEZ, offset (R181). -/
def immCb (w : BitVec 16) : BitVec 9 :=
  w.extractLsb' 12 1 ++ w.extractLsb' 5 2 ++ w.extractLsb' 2 1 ++ w.extractLsb' 10 2 ++ w.extractLsb' 3 2 ++ 0#1

/-- C.J, offset (R182). -/
def immCj (w : BitVec 16) : BitVec 12 :=
  w.extractLsb' 12 1 ++ w.extractLsb' 8 1 ++ w.extractLsb' 9 2 ++ w.extractLsb' 6 1 ++ w.extractLsb' 7 1 ++ w.extractLsb' 2 1 ++ w.extractLsb' 11 1 ++ w.extractLsb' 3 3 ++ 0#1

/-! ## Decoding 16-bit words (R199 to R201), one function for each quadrant -/

/-- Quadrant 0 (R199). -/
def decodeQ0 (w : BitVec 16) : Option Instr :=
  match w.extractLsb' 13 3 with
  | 0b000#3 => if immCiw w = 0#10 then none else some (.cAddi4spn (lowReg w) (immCiw w))
  | 0b001#3 => some (.cFld (lowReg w) (midReg w) (immCld w))
  | 0b010#3 => some (.cLw (lowReg w) (midReg w) (immClw w))
  | 0b011#3 => some (.cLd (lowReg w) (midReg w) (immCld w))
  | 0b101#3 => some (.cFsd (lowReg w) (midReg w) (immCld w))
  | 0b110#3 => some (.cSw (lowReg w) (midReg w) (immClw w))
  | 0b111#3 => some (.cSd (lowReg w) (midReg w) (immCld w))
  | _ => none

/-- The register-register group of quadrant 1, by `{w[12], w[6:5]}` (R200). -/
def decodeCa (w : BitVec 16) : Option Instr :=
  match w.extractLsb' 12 1 ++ w.extractLsb' 5 2 with
  | 0b000#3 => some (.cSub (midReg w) (lowReg w))
  | 0b001#3 => some (.cXor (midReg w) (lowReg w))
  | 0b010#3 => some (.cOr (midReg w) (lowReg w))
  | 0b011#3 => some (.cAnd (midReg w) (lowReg w))
  | 0b100#3 => some (.cSubw (midReg w) (lowReg w))
  | 0b101#3 => some (.cAddw (midReg w) (lowReg w))
  | _ => none

/-- The ALU group of quadrant 1, by `w[11:10]` (R200). -/
def decodeCbAlu (w : BitVec 16) : Option Instr :=
  match w.extractLsb' 10 2 with
  | 0b00#2 => some (.cSrli (midReg w) (immCi w))
  | 0b01#2 => some (.cSrai (midReg w) (immCi w))
  | 0b10#2 => some (.cAndi (midReg w) (immCi w))
  | _ => decodeCa w

/-- Quadrant 1 (R200). -/
def decodeQ1 (w : BitVec 16) : Option Instr :=
  match w.extractLsb' 13 3 with
  | 0b000#3 => if crdField w = 0#5 then some (.cNop (immCi w)) else some (.cAddi (crdField w) (immCi w))
  | 0b001#3 => if crdField w = 0#5 then none else some (.cAddiw (crdField w) (immCi w))
  | 0b010#3 => some (.cLi (crdField w) (immCi w))
  | 0b011#3 =>
    if crdField w = 2#5 then
      if immCaddi16sp w = 0#10 then none else some (.cAddi16sp (immCaddi16sp w))
    else
      if immClui w = 0#18 then none else some (.cLui (crdField w) (immClui w))
  | 0b100#3 => decodeCbAlu w
  | 0b101#3 => some (.cJ (immCj w))
  | 0b110#3 => some (.cBeqz (midReg w) (immCb w))
  | 0b111#3 => some (.cBnez (midReg w) (immCb w))
  | _ => none

/-- The CR group of quadrant 2, by `w[12]`, rs1 and rs2 (R201). -/
def decodeCr (w : BitVec 16) : Option Instr :=
  if w.extractLsb' 12 1 = 0#1 then
    if crs2Field w = 0#5 then
      if crdField w = 0#5 then none else some (.cJr (crdField w))
    else some (.cMv (crdField w) (crs2Field w))
  else
    if crs2Field w = 0#5 then
      if crdField w = 0#5 then some .cEbreak else some (.cJalr (crdField w))
    else some (.cAdd (crdField w) (crs2Field w))

/-- Quadrant 2 (R201). -/
def decodeQ2 (w : BitVec 16) : Option Instr :=
  match w.extractLsb' 13 3 with
  | 0b000#3 => some (.cSlli (crdField w) (immCi w))
  | 0b001#3 => some (.cFldsp (crdField w) (immCldsp w))
  | 0b010#3 => if crdField w = 0#5 then none else some (.cLwsp (crdField w) (immClwsp w))
  | 0b011#3 => if crdField w = 0#5 then none else some (.cLdsp (crdField w) (immCldsp w))
  | 0b100#3 => decodeCr w
  | 0b101#3 => some (.cFsdsp (crs2Field w) (immCsdsp w))
  | 0b110#3 => some (.cSwsp (crs2Field w) (immCswsp w))
  | 0b111#3 => some (.cSdsp (crs2Field w) (immCsdsp w))
  | _ => none

/-- The instruction a 16-bit word spells (R199 to R201); `none` for a reserved one (R215). -/
def decode16 (w : BitVec 16) : Option Instr :=
  match w.extractLsb' 0 2 with
  | 0b00#2 => decodeQ0 w
  | 0b01#2 => decodeQ1 w
  | 0b10#2 => decodeQ2 w
  | _ => none

/-! ## Bytes to instructions (R102, R150 to R153) -/

/-- What the first parcel says of the length (R151, R152). -/
inductive ParcelKind where
  | compressed
  | standard
  | long
deriving DecidableEq, Repr

/-- The length decision of R151. -/
def parcelKind (p0 : BitVec 16) : ParcelKind :=
  if p0.extractLsb' 0 2 ≠ 0b11#2 then .compressed
  else if p0.extractLsb' 2 3 ≠ 0b111#3 then .standard
  else .long

/-- Why bytes are no instruction. -/
inductive Reject where
  /-- No row of the opcode table matches this parcel or word (R153, R210), zero-extended (R815). -/
  | noRow (w : BitVec 32)
  /-- The first parcel begins an encoding of 48 bits or more (R152), zero-extended (R815). -/
  | longEncoding (w : BitVec 32)
  /-- The bytes end inside the instruction. -/
  | truncated
deriving DecidableEq, Repr

/-- The outcome of decoding bytes: the instruction with the bytes after it, or why there is none. -/
inductive Decoded where
  | instr (i : Instr) (rest : List Byte)
  | reject (r : Reject)
deriving DecidableEq, Repr

/-- The decoder over bytes, the one at the lowest address first, each parcel little-endian (R102). -/
def decode : List Byte → Decoded
  | b0 :: b1 :: rest =>
    match parcelKind (b1 ++ b0) with
    | .compressed =>
      match decode16 (b1 ++ b0) with
      | some i => .instr i rest
      | none => .reject (.noRow ((b1 ++ b0).setWidth 32))
    | .standard =>
      match rest with
      | b2 :: b3 :: rest' =>
        match decode32 (b3 ++ b2 ++ b1 ++ b0) with
        | some i => .instr i rest'
        | none => .reject (.noRow (b3 ++ b2 ++ b1 ++ b0))
      | _ => .reject .truncated
    | .long => .reject (.longEncoding ((b1 ++ b0).setWidth 32))
  | _ => .reject .truncated

/-- The four bytes of a table word `w` of `nbits` bits, zeros above, as the hardware stores them (R102). -/
def tableBytes (nbits w : Nat) : List Byte :=
  let v := BitVec.ofNat 32 (w % 2 ^ nbits)
  [v.extractLsb' 0 8, v.extractLsb' 8 8, v.extractLsb' 16 8, v.extractLsb' 24 8]

/-- The instruction this decoder reads from a word numbered as spec/opcode_table.json numbers it. -/
def decodeTableWord (nbits w : Nat) : Option Instr :=
  match decode (tableBytes nbits w) with
  | .instr i _ => some i
  | .reject _ => none

/-! ## The encoder, from the same tables -/

/-- An encoded instruction: one 16-bit parcel or one 32-bit word (R150). -/
inductive Code where
  | parcel (h : BitVec 16)
  | word (w : BitVec 32)
deriving DecidableEq, Repr

/-- The bytes of an encoding, the one at the lowest address first (R102). -/
def Code.bytes : Code → List Byte
  | .parcel h => [h.extractLsb' 0 8, h.extractLsb' 8 8]
  | .word w => [w.extractLsb' 0 8, w.extractLsb' 8 8, w.extractLsb' 16 8, w.extractLsb' 24 8]

/-- Formats R and R-fp (R154). -/
def encR (funct7 : BitVec 7) (rs2 rs1 : BitVec 5) (funct3 : BitVec 3) (rd : BitVec 5) (op : BitVec 7) : BitVec 32 :=
  funct7 ++ rs2 ++ rs1 ++ funct3 ++ rd ++ op

/-- Format R4 (R154). -/
def encR4 (rs3 : BitVec 5) (fmt : BitVec 2) (rs2 rs1 : BitVec 5) (rm : BitVec 3) (rd : BitVec 5) (op : BitVec 7) :
    BitVec 32 :=
  rs3 ++ fmt ++ rs2 ++ rs1 ++ rm ++ rd ++ op

/-- Format R-amo (R154, R169). -/
def encAmo (funct5 : BitVec 5) (aq rl : Bool) (rs2 rs1 : BitVec 5) (funct3 : BitVec 3) (rd : BitVec 5) : BitVec 32 :=
  funct5 ++ BitVec.ofBool aq ++ BitVec.ofBool rl ++ rs2 ++ rs1 ++ funct3 ++ rd ++ 0x2F#7

/-- Formats I and I-csr (R154, R161, R167). -/
def encI (imm : BitVec 12) (rs1 : BitVec 5) (funct3 : BitVec 3) (rd : BitVec 5) (op : BitVec 7) : BitVec 32 :=
  imm ++ rs1 ++ funct3 ++ rd ++ op

/-- Format I-shift64 (R154, R166). -/
def encShift64 (funct6 shamt : BitVec 6) (rs1 : BitVec 5) (funct3 : BitVec 3) (rd : BitVec 5) : BitVec 32 :=
  funct6 ++ shamt ++ rs1 ++ funct3 ++ rd ++ 0x13#7

/-- Format I-fence (R154, R168). -/
def encFence (fm pred succ : BitVec 4) (rs1 rd : BitVec 5) : BitVec 32 :=
  fm ++ pred ++ succ ++ rs1 ++ 0b000#3 ++ rd ++ 0x0F#7

/-- Format S (R154, R162). -/
def encS (imm : BitVec 12) (rs2 rs1 : BitVec 5) (funct3 : BitVec 3) (op : BitVec 7) : BitVec 32 :=
  imm.extractLsb' 5 7 ++ rs2 ++ rs1 ++ funct3 ++ imm.extractLsb' 0 5 ++ op

/-- Format B (R154, R164). -/
def encB (imm : BitVec 13) (rs2 rs1 : BitVec 5) (funct3 : BitVec 3) : BitVec 32 :=
  imm.extractLsb' 12 1 ++ imm.extractLsb' 5 6 ++ rs2 ++ rs1 ++ funct3 ++ imm.extractLsb' 1 4
    ++ imm.extractLsb' 11 1 ++ 0x63#7

/-- Format U (R154, R163). -/
def encU (imm : BitVec 20) (rd : BitVec 5) (op : BitVec 7) : BitVec 32 :=
  imm ++ rd ++ op

/-- Format J (R154, R165). -/
def encJ (imm : BitVec 21) (rd : BitVec 5) : BitVec 32 :=
  imm.extractLsb' 20 1 ++ imm.extractLsb' 1 10 ++ imm.extractLsb' 11 1 ++ imm.extractLsb' 12 8 ++ rd ++ 0x6F#7

/-- The 3-bit field of a register 8 to 15 (R158). -/
def rvcField (r : BitVec 5) : BitVec 3 := r.extractLsb' 0 3

/-- Format CR (R157). -/
def encCr (funct4 : BitVec 4) (rd rs2 : BitVec 5) : BitVec 16 :=
  funct4 ++ rd ++ rs2 ++ 0b10#2

/-- Format CI with `imm[5]` in bit 12 and `imm[4:0]` in bits 6:2 (R157, R173, R176). -/
def encCi (funct3 : BitVec 3) (imm : BitVec 6) (rd : BitVec 5) (op : BitVec 2) : BitVec 16 :=
  funct3 ++ imm.extractLsb' 5 1 ++ rd ++ imm.extractLsb' 0 5 ++ op

/-- Formats CL and CS with the word offset of R171. -/
def encClw (funct3 : BitVec 3) (uimm : BitVec 7) (rs1 r : BitVec 5) : BitVec 16 :=
  funct3 ++ uimm.extractLsb' 3 3 ++ rvcField rs1 ++ uimm.extractLsb' 2 1 ++ uimm.extractLsb' 6 1 ++ rvcField r ++ 0b00#2

/-- Formats CL and CS with the doubleword offset of R172. -/
def encCld (funct3 : BitVec 3) (uimm : BitVec 8) (rs1 r : BitVec 5) : BitVec 16 :=
  funct3 ++ uimm.extractLsb' 3 3 ++ rvcField rs1 ++ uimm.extractLsb' 6 2 ++ rvcField r ++ 0b00#2

/-- Format CA (R157, R200). -/
def encCa (funct6 : BitVec 6) (rd : BitVec 5) (funct2 : BitVec 2) (rs2 : BitVec 5) : BitVec 16 :=
  funct6 ++ rvcField rd ++ funct2 ++ rvcField rs2 ++ 0b01#2

/-- Format CB-alu (R157, R200). -/
def encCbAlu (imm : BitVec 6) (funct2 : BitVec 2) (rd : BitVec 5) : BitVec 16 :=
  0b100#3 ++ imm.extractLsb' 5 1 ++ funct2 ++ rvcField rd ++ imm.extractLsb' 0 5 ++ 0b01#2

/-- Format CB (R157, R181). -/
def encCb (funct3 : BitVec 3) (offset : BitVec 9) (rs1 : BitVec 5) : BitVec 16 :=
  funct3 ++ offset.extractLsb' 8 1 ++ offset.extractLsb' 3 2 ++ rvcField rs1 ++ offset.extractLsb' 6 2
    ++ offset.extractLsb' 1 2 ++ offset.extractLsb' 5 1 ++ 0b01#2

/-- Format CJ (R157, R182). -/
def encCj (offset : BitVec 12) : BitVec 16 :=
  0b101#3 ++ offset.extractLsb' 11 1 ++ offset.extractLsb' 4 1 ++ offset.extractLsb' 8 2 ++ offset.extractLsb' 10 1
    ++ offset.extractLsb' 6 1 ++ offset.extractLsb' 7 1 ++ offset.extractLsb' 1 3 ++ offset.extractLsb' 5 1 ++ 0b01#2

/-- Format CI with the doubleword sp offset of R178. -/
def encCldsp (funct3 : BitVec 3) (uimm : BitVec 9) (rd : BitVec 5) : BitVec 16 :=
  funct3 ++ uimm.extractLsb' 5 1 ++ rd ++ uimm.extractLsb' 3 2 ++ uimm.extractLsb' 6 3 ++ 0b10#2

/-- Format CSS with the doubleword sp offset of R180. -/
def encCsdsp (funct3 : BitVec 3) (uimm : BitVec 9) (rs2 : BitVec 5) : BitVec 16 :=
  funct3 ++ uimm.extractLsb' 3 3 ++ uimm.extractLsb' 6 3 ++ rs2 ++ 0b10#2

/-- The word of a well-formed instruction (R154, R157 and the opcode map R190 to R201). -/
def encode : Instr → Code
  | .lui rd imm => .word (encU imm rd 0x37#7)
  | .auipc rd imm => .word (encU imm rd 0x17#7)
  | .jal rd offset => .word (encJ offset rd)
  | .jalr rd rs1 imm => .word (encI imm rs1 0b000#3 rd 0x67#7)
  | .beq rs1 rs2 offset => .word (encB offset rs2 rs1 0b000#3)
  | .bne rs1 rs2 offset => .word (encB offset rs2 rs1 0b001#3)
  | .blt rs1 rs2 offset => .word (encB offset rs2 rs1 0b100#3)
  | .bge rs1 rs2 offset => .word (encB offset rs2 rs1 0b101#3)
  | .bltu rs1 rs2 offset => .word (encB offset rs2 rs1 0b110#3)
  | .bgeu rs1 rs2 offset => .word (encB offset rs2 rs1 0b111#3)
  | .lb rd rs1 imm => .word (encI imm rs1 0b000#3 rd 0x03#7)
  | .lh rd rs1 imm => .word (encI imm rs1 0b001#3 rd 0x03#7)
  | .lw rd rs1 imm => .word (encI imm rs1 0b010#3 rd 0x03#7)
  | .ld rd rs1 imm => .word (encI imm rs1 0b011#3 rd 0x03#7)
  | .lbu rd rs1 imm => .word (encI imm rs1 0b100#3 rd 0x03#7)
  | .lhu rd rs1 imm => .word (encI imm rs1 0b101#3 rd 0x03#7)
  | .lwu rd rs1 imm => .word (encI imm rs1 0b110#3 rd 0x03#7)
  | .sb rs2 rs1 imm => .word (encS imm rs2 rs1 0b000#3 0x23#7)
  | .sh rs2 rs1 imm => .word (encS imm rs2 rs1 0b001#3 0x23#7)
  | .sw rs2 rs1 imm => .word (encS imm rs2 rs1 0b010#3 0x23#7)
  | .sd rs2 rs1 imm => .word (encS imm rs2 rs1 0b011#3 0x23#7)
  | .addi rd rs1 imm => .word (encI imm rs1 0b000#3 rd 0x13#7)
  | .slti rd rs1 imm => .word (encI imm rs1 0b010#3 rd 0x13#7)
  | .sltiu rd rs1 imm => .word (encI imm rs1 0b011#3 rd 0x13#7)
  | .xori rd rs1 imm => .word (encI imm rs1 0b100#3 rd 0x13#7)
  | .ori rd rs1 imm => .word (encI imm rs1 0b110#3 rd 0x13#7)
  | .andi rd rs1 imm => .word (encI imm rs1 0b111#3 rd 0x13#7)
  | .slli rd rs1 shamt => .word (encShift64 0b000000#6 shamt rs1 0b001#3 rd)
  | .srli rd rs1 shamt => .word (encShift64 0b000000#6 shamt rs1 0b101#3 rd)
  | .srai rd rs1 shamt => .word (encShift64 0b010000#6 shamt rs1 0b101#3 rd)
  | .add rd rs1 rs2 => .word (encR 0b0000000#7 rs2 rs1 0b000#3 rd 0x33#7)
  | .sub rd rs1 rs2 => .word (encR 0b0100000#7 rs2 rs1 0b000#3 rd 0x33#7)
  | .sll rd rs1 rs2 => .word (encR 0b0000000#7 rs2 rs1 0b001#3 rd 0x33#7)
  | .slt rd rs1 rs2 => .word (encR 0b0000000#7 rs2 rs1 0b010#3 rd 0x33#7)
  | .sltu rd rs1 rs2 => .word (encR 0b0000000#7 rs2 rs1 0b011#3 rd 0x33#7)
  | .xor rd rs1 rs2 => .word (encR 0b0000000#7 rs2 rs1 0b100#3 rd 0x33#7)
  | .srl rd rs1 rs2 => .word (encR 0b0000000#7 rs2 rs1 0b101#3 rd 0x33#7)
  | .sra rd rs1 rs2 => .word (encR 0b0100000#7 rs2 rs1 0b101#3 rd 0x33#7)
  | .or rd rs1 rs2 => .word (encR 0b0000000#7 rs2 rs1 0b110#3 rd 0x33#7)
  | .and rd rs1 rs2 => .word (encR 0b0000000#7 rs2 rs1 0b111#3 rd 0x33#7)
  | .fence fm pred succ rs1 rd => .word (encFence fm pred succ rs1 rd)
  | .fenceI imm rs1 rd => .word (encI imm rs1 0b001#3 rd 0x0F#7)
  | .ecall => .word 0x00000073#32
  | .ebreak => .word 0x00100073#32
  | .addiw rd rs1 imm => .word (encI imm rs1 0b000#3 rd 0x1B#7)
  | .slliw rd rs1 shamt => .word (encR 0b0000000#7 shamt rs1 0b001#3 rd 0x1B#7)
  | .srliw rd rs1 shamt => .word (encR 0b0000000#7 shamt rs1 0b101#3 rd 0x1B#7)
  | .sraiw rd rs1 shamt => .word (encR 0b0100000#7 shamt rs1 0b101#3 rd 0x1B#7)
  | .addw rd rs1 rs2 => .word (encR 0b0000000#7 rs2 rs1 0b000#3 rd 0x3B#7)
  | .subw rd rs1 rs2 => .word (encR 0b0100000#7 rs2 rs1 0b000#3 rd 0x3B#7)
  | .sllw rd rs1 rs2 => .word (encR 0b0000000#7 rs2 rs1 0b001#3 rd 0x3B#7)
  | .srlw rd rs1 rs2 => .word (encR 0b0000000#7 rs2 rs1 0b101#3 rd 0x3B#7)
  | .sraw rd rs1 rs2 => .word (encR 0b0100000#7 rs2 rs1 0b101#3 rd 0x3B#7)
  | .mul rd rs1 rs2 => .word (encR 0b0000001#7 rs2 rs1 0b000#3 rd 0x33#7)
  | .mulh rd rs1 rs2 => .word (encR 0b0000001#7 rs2 rs1 0b001#3 rd 0x33#7)
  | .mulhsu rd rs1 rs2 => .word (encR 0b0000001#7 rs2 rs1 0b010#3 rd 0x33#7)
  | .mulhu rd rs1 rs2 => .word (encR 0b0000001#7 rs2 rs1 0b011#3 rd 0x33#7)
  | .div rd rs1 rs2 => .word (encR 0b0000001#7 rs2 rs1 0b100#3 rd 0x33#7)
  | .divu rd rs1 rs2 => .word (encR 0b0000001#7 rs2 rs1 0b101#3 rd 0x33#7)
  | .rem rd rs1 rs2 => .word (encR 0b0000001#7 rs2 rs1 0b110#3 rd 0x33#7)
  | .remu rd rs1 rs2 => .word (encR 0b0000001#7 rs2 rs1 0b111#3 rd 0x33#7)
  | .mulw rd rs1 rs2 => .word (encR 0b0000001#7 rs2 rs1 0b000#3 rd 0x3B#7)
  | .divw rd rs1 rs2 => .word (encR 0b0000001#7 rs2 rs1 0b100#3 rd 0x3B#7)
  | .divuw rd rs1 rs2 => .word (encR 0b0000001#7 rs2 rs1 0b101#3 rd 0x3B#7)
  | .remw rd rs1 rs2 => .word (encR 0b0000001#7 rs2 rs1 0b110#3 rd 0x3B#7)
  | .remuw rd rs1 rs2 => .word (encR 0b0000001#7 rs2 rs1 0b111#3 rd 0x3B#7)
  | .lrW rd rs1 aq rl => .word (encAmo 0b00010#5 aq rl 0#5 rs1 0b010#3 rd)
  | .scW rd rs1 rs2 aq rl => .word (encAmo 0b00011#5 aq rl rs2 rs1 0b010#3 rd)
  | .lrD rd rs1 aq rl => .word (encAmo 0b00010#5 aq rl 0#5 rs1 0b011#3 rd)
  | .scD rd rs1 rs2 aq rl => .word (encAmo 0b00011#5 aq rl rs2 rs1 0b011#3 rd)
  | .amoswapW rd rs1 rs2 aq rl => .word (encAmo 0b00001#5 aq rl rs2 rs1 0b010#3 rd)
  | .amoaddW rd rs1 rs2 aq rl => .word (encAmo 0b00000#5 aq rl rs2 rs1 0b010#3 rd)
  | .amoxorW rd rs1 rs2 aq rl => .word (encAmo 0b00100#5 aq rl rs2 rs1 0b010#3 rd)
  | .amoandW rd rs1 rs2 aq rl => .word (encAmo 0b01100#5 aq rl rs2 rs1 0b010#3 rd)
  | .amoorW rd rs1 rs2 aq rl => .word (encAmo 0b01000#5 aq rl rs2 rs1 0b010#3 rd)
  | .amominW rd rs1 rs2 aq rl => .word (encAmo 0b10000#5 aq rl rs2 rs1 0b010#3 rd)
  | .amomaxW rd rs1 rs2 aq rl => .word (encAmo 0b10100#5 aq rl rs2 rs1 0b010#3 rd)
  | .amominuW rd rs1 rs2 aq rl => .word (encAmo 0b11000#5 aq rl rs2 rs1 0b010#3 rd)
  | .amomaxuW rd rs1 rs2 aq rl => .word (encAmo 0b11100#5 aq rl rs2 rs1 0b010#3 rd)
  | .amoswapD rd rs1 rs2 aq rl => .word (encAmo 0b00001#5 aq rl rs2 rs1 0b011#3 rd)
  | .amoaddD rd rs1 rs2 aq rl => .word (encAmo 0b00000#5 aq rl rs2 rs1 0b011#3 rd)
  | .amoxorD rd rs1 rs2 aq rl => .word (encAmo 0b00100#5 aq rl rs2 rs1 0b011#3 rd)
  | .amoandD rd rs1 rs2 aq rl => .word (encAmo 0b01100#5 aq rl rs2 rs1 0b011#3 rd)
  | .amoorD rd rs1 rs2 aq rl => .word (encAmo 0b01000#5 aq rl rs2 rs1 0b011#3 rd)
  | .amominD rd rs1 rs2 aq rl => .word (encAmo 0b10000#5 aq rl rs2 rs1 0b011#3 rd)
  | .amomaxD rd rs1 rs2 aq rl => .word (encAmo 0b10100#5 aq rl rs2 rs1 0b011#3 rd)
  | .amominuD rd rs1 rs2 aq rl => .word (encAmo 0b11000#5 aq rl rs2 rs1 0b011#3 rd)
  | .amomaxuD rd rs1 rs2 aq rl => .word (encAmo 0b11100#5 aq rl rs2 rs1 0b011#3 rd)
  | .csrrw rd csr rs1 => .word (encI csr.number rs1 0b001#3 rd 0x73#7)
  | .csrrs rd csr rs1 => .word (encI csr.number rs1 0b010#3 rd 0x73#7)
  | .csrrc rd csr rs1 => .word (encI csr.number rs1 0b011#3 rd 0x73#7)
  | .csrrwi rd csr uimm => .word (encI csr.number uimm 0b101#3 rd 0x73#7)
  | .csrrsi rd csr uimm => .word (encI csr.number uimm 0b110#3 rd 0x73#7)
  | .csrrci rd csr uimm => .word (encI csr.number uimm 0b111#3 rd 0x73#7)
  | .flw frd rs1 imm => .word (encI imm rs1 0b010#3 frd 0x07#7)
  | .fsw frs2 rs1 imm => .word (encS imm frs2 rs1 0b010#3 0x27#7)
  | .fmaddS frd frs1 frs2 frs3 rm => .word (encR4 frs3 0b00#2 frs2 frs1 rm.toBits frd 0x43#7)
  | .fmsubS frd frs1 frs2 frs3 rm => .word (encR4 frs3 0b00#2 frs2 frs1 rm.toBits frd 0x47#7)
  | .fnmsubS frd frs1 frs2 frs3 rm => .word (encR4 frs3 0b00#2 frs2 frs1 rm.toBits frd 0x4B#7)
  | .fnmaddS frd frs1 frs2 frs3 rm => .word (encR4 frs3 0b00#2 frs2 frs1 rm.toBits frd 0x4F#7)
  | .faddS frd frs1 frs2 rm => .word (encR 0b0000000#7 frs2 frs1 rm.toBits frd 0x53#7)
  | .fsubS frd frs1 frs2 rm => .word (encR 0b0000100#7 frs2 frs1 rm.toBits frd 0x53#7)
  | .fmulS frd frs1 frs2 rm => .word (encR 0b0001000#7 frs2 frs1 rm.toBits frd 0x53#7)
  | .fdivS frd frs1 frs2 rm => .word (encR 0b0001100#7 frs2 frs1 rm.toBits frd 0x53#7)
  | .fsqrtS frd frs1 rm => .word (encR 0b0101100#7 0#5 frs1 rm.toBits frd 0x53#7)
  | .fsgnjS frd frs1 frs2 => .word (encR 0b0010000#7 frs2 frs1 0b000#3 frd 0x53#7)
  | .fsgnjnS frd frs1 frs2 => .word (encR 0b0010000#7 frs2 frs1 0b001#3 frd 0x53#7)
  | .fsgnjxS frd frs1 frs2 => .word (encR 0b0010000#7 frs2 frs1 0b010#3 frd 0x53#7)
  | .fminS frd frs1 frs2 => .word (encR 0b0010100#7 frs2 frs1 0b000#3 frd 0x53#7)
  | .fmaxS frd frs1 frs2 => .word (encR 0b0010100#7 frs2 frs1 0b001#3 frd 0x53#7)
  | .fcvtWS rd frs1 rm => .word (encR 0b1100000#7 0#5 frs1 rm.toBits rd 0x53#7)
  | .fcvtWUS rd frs1 rm => .word (encR 0b1100000#7 1#5 frs1 rm.toBits rd 0x53#7)
  | .fcvtLS rd frs1 rm => .word (encR 0b1100000#7 2#5 frs1 rm.toBits rd 0x53#7)
  | .fcvtLUS rd frs1 rm => .word (encR 0b1100000#7 3#5 frs1 rm.toBits rd 0x53#7)
  | .fmvXW rd frs1 => .word (encR 0b1110000#7 0#5 frs1 0b000#3 rd 0x53#7)
  | .feqS rd frs1 frs2 => .word (encR 0b1010000#7 frs2 frs1 0b010#3 rd 0x53#7)
  | .fltS rd frs1 frs2 => .word (encR 0b1010000#7 frs2 frs1 0b001#3 rd 0x53#7)
  | .fleS rd frs1 frs2 => .word (encR 0b1010000#7 frs2 frs1 0b000#3 rd 0x53#7)
  | .fclassS rd frs1 => .word (encR 0b1110000#7 0#5 frs1 0b001#3 rd 0x53#7)
  | .fcvtSW frd rs1 rm => .word (encR 0b1101000#7 0#5 rs1 rm.toBits frd 0x53#7)
  | .fcvtSWU frd rs1 rm => .word (encR 0b1101000#7 1#5 rs1 rm.toBits frd 0x53#7)
  | .fcvtSL frd rs1 rm => .word (encR 0b1101000#7 2#5 rs1 rm.toBits frd 0x53#7)
  | .fcvtSLU frd rs1 rm => .word (encR 0b1101000#7 3#5 rs1 rm.toBits frd 0x53#7)
  | .fmvWX frd rs1 => .word (encR 0b1111000#7 0#5 rs1 0b000#3 frd 0x53#7)
  | .fld frd rs1 imm => .word (encI imm rs1 0b011#3 frd 0x07#7)
  | .fsd frs2 rs1 imm => .word (encS imm frs2 rs1 0b011#3 0x27#7)
  | .fmaddD frd frs1 frs2 frs3 rm => .word (encR4 frs3 0b01#2 frs2 frs1 rm.toBits frd 0x43#7)
  | .fmsubD frd frs1 frs2 frs3 rm => .word (encR4 frs3 0b01#2 frs2 frs1 rm.toBits frd 0x47#7)
  | .fnmsubD frd frs1 frs2 frs3 rm => .word (encR4 frs3 0b01#2 frs2 frs1 rm.toBits frd 0x4B#7)
  | .fnmaddD frd frs1 frs2 frs3 rm => .word (encR4 frs3 0b01#2 frs2 frs1 rm.toBits frd 0x4F#7)
  | .faddD frd frs1 frs2 rm => .word (encR 0b0000001#7 frs2 frs1 rm.toBits frd 0x53#7)
  | .fsubD frd frs1 frs2 rm => .word (encR 0b0000101#7 frs2 frs1 rm.toBits frd 0x53#7)
  | .fmulD frd frs1 frs2 rm => .word (encR 0b0001001#7 frs2 frs1 rm.toBits frd 0x53#7)
  | .fdivD frd frs1 frs2 rm => .word (encR 0b0001101#7 frs2 frs1 rm.toBits frd 0x53#7)
  | .fsqrtD frd frs1 rm => .word (encR 0b0101101#7 0#5 frs1 rm.toBits frd 0x53#7)
  | .fsgnjD frd frs1 frs2 => .word (encR 0b0010001#7 frs2 frs1 0b000#3 frd 0x53#7)
  | .fsgnjnD frd frs1 frs2 => .word (encR 0b0010001#7 frs2 frs1 0b001#3 frd 0x53#7)
  | .fsgnjxD frd frs1 frs2 => .word (encR 0b0010001#7 frs2 frs1 0b010#3 frd 0x53#7)
  | .fminD frd frs1 frs2 => .word (encR 0b0010101#7 frs2 frs1 0b000#3 frd 0x53#7)
  | .fmaxD frd frs1 frs2 => .word (encR 0b0010101#7 frs2 frs1 0b001#3 frd 0x53#7)
  | .fcvtSD frd frs1 rm => .word (encR 0b0100000#7 1#5 frs1 rm.toBits frd 0x53#7)
  | .fcvtDS frd frs1 rm => .word (encR 0b0100001#7 0#5 frs1 rm.toBits frd 0x53#7)
  | .feqD rd frs1 frs2 => .word (encR 0b1010001#7 frs2 frs1 0b010#3 rd 0x53#7)
  | .fltD rd frs1 frs2 => .word (encR 0b1010001#7 frs2 frs1 0b001#3 rd 0x53#7)
  | .fleD rd frs1 frs2 => .word (encR 0b1010001#7 frs2 frs1 0b000#3 rd 0x53#7)
  | .fclassD rd frs1 => .word (encR 0b1110001#7 0#5 frs1 0b001#3 rd 0x53#7)
  | .fcvtWD rd frs1 rm => .word (encR 0b1100001#7 0#5 frs1 rm.toBits rd 0x53#7)
  | .fcvtWUD rd frs1 rm => .word (encR 0b1100001#7 1#5 frs1 rm.toBits rd 0x53#7)
  | .fcvtLD rd frs1 rm => .word (encR 0b1100001#7 2#5 frs1 rm.toBits rd 0x53#7)
  | .fcvtLUD rd frs1 rm => .word (encR 0b1100001#7 3#5 frs1 rm.toBits rd 0x53#7)
  | .fmvXD rd frs1 => .word (encR 0b1110001#7 0#5 frs1 0b000#3 rd 0x53#7)
  | .fcvtDW frd rs1 rm => .word (encR 0b1101001#7 0#5 rs1 rm.toBits frd 0x53#7)
  | .fcvtDWU frd rs1 rm => .word (encR 0b1101001#7 1#5 rs1 rm.toBits frd 0x53#7)
  | .fcvtDL frd rs1 rm => .word (encR 0b1101001#7 2#5 rs1 rm.toBits frd 0x53#7)
  | .fcvtDLU frd rs1 rm => .word (encR 0b1101001#7 3#5 rs1 rm.toBits frd 0x53#7)
  | .fmvDX frd rs1 => .word (encR 0b1111001#7 0#5 rs1 0b000#3 frd 0x53#7)
  | .cAddi4spn rd nzuimm => .parcel (0b000#3 ++ nzuimm.extractLsb' 4 2 ++ nzuimm.extractLsb' 6 4 ++ nzuimm.extractLsb' 2 1 ++ nzuimm.extractLsb' 3 1 ++ rvcField rd ++ 0b00#2)
  | .cFld frd rs1 uimm => .parcel (encCld 0b001#3 uimm rs1 frd)
  | .cLw rd rs1 uimm => .parcel (encClw 0b010#3 uimm rs1 rd)
  | .cLd rd rs1 uimm => .parcel (encCld 0b011#3 uimm rs1 rd)
  | .cFsd frs2 rs1 uimm => .parcel (encCld 0b101#3 uimm rs1 frs2)
  | .cSw rs2 rs1 uimm => .parcel (encClw 0b110#3 uimm rs1 rs2)
  | .cSd rs2 rs1 uimm => .parcel (encCld 0b111#3 uimm rs1 rs2)
  | .cNop imm => .parcel (encCi 0b000#3 imm 0#5 0b01#2)
  | .cAddi rd imm => .parcel (encCi 0b000#3 imm rd 0b01#2)
  | .cAddiw rd imm => .parcel (encCi 0b001#3 imm rd 0b01#2)
  | .cLi rd imm => .parcel (encCi 0b010#3 imm rd 0b01#2)
  | .cAddi16sp nzimm => .parcel (0b011#3 ++ nzimm.extractLsb' 9 1 ++ 2#5 ++ nzimm.extractLsb' 4 1 ++ nzimm.extractLsb' 6 1 ++ nzimm.extractLsb' 7 2 ++ nzimm.extractLsb' 5 1 ++ 0b01#2)
  | .cLui rd nzimm => .parcel (0b011#3 ++ nzimm.extractLsb' 17 1 ++ rd ++ nzimm.extractLsb' 12 5 ++ 0b01#2)
  | .cSrli rd shamt => .parcel (encCbAlu shamt 0b00#2 rd)
  | .cSrai rd shamt => .parcel (encCbAlu shamt 0b01#2 rd)
  | .cAndi rd imm => .parcel (encCbAlu imm 0b10#2 rd)
  | .cSub rd rs2 => .parcel (encCa 0b100011#6 rd 0b00#2 rs2)
  | .cXor rd rs2 => .parcel (encCa 0b100011#6 rd 0b01#2 rs2)
  | .cOr rd rs2 => .parcel (encCa 0b100011#6 rd 0b10#2 rs2)
  | .cAnd rd rs2 => .parcel (encCa 0b100011#6 rd 0b11#2 rs2)
  | .cSubw rd rs2 => .parcel (encCa 0b100111#6 rd 0b00#2 rs2)
  | .cAddw rd rs2 => .parcel (encCa 0b100111#6 rd 0b01#2 rs2)
  | .cJ offset => .parcel (encCj offset)
  | .cBeqz rs1 offset => .parcel (encCb 0b110#3 offset rs1)
  | .cBnez rs1 offset => .parcel (encCb 0b111#3 offset rs1)
  | .cSlli rd shamt => .parcel (encCi 0b000#3 shamt rd 0b10#2)
  | .cFldsp frd uimm => .parcel (encCldsp 0b001#3 uimm frd)
  | .cLwsp rd uimm => .parcel (0b010#3 ++ uimm.extractLsb' 5 1 ++ rd ++ uimm.extractLsb' 2 3 ++ uimm.extractLsb' 6 2 ++ 0b10#2)
  | .cLdsp rd uimm => .parcel (encCldsp 0b011#3 uimm rd)
  | .cJr rs1 => .parcel (encCr 0b1000#4 rs1 0#5)
  | .cMv rd rs2 => .parcel (encCr 0b1000#4 rd rs2)
  | .cEbreak => .parcel (encCr 0b1001#4 0#5 0#5)
  | .cJalr rs1 => .parcel (encCr 0b1001#4 rs1 0#5)
  | .cAdd rd rs2 => .parcel (encCr 0b1001#4 rd rs2)
  | .cFsdsp frs2 uimm => .parcel (encCsdsp 0b101#3 uimm frs2)
  | .cSwsp rs2 uimm => .parcel (0b110#3 ++ uimm.extractLsb' 2 4 ++ uimm.extractLsb' 6 2 ++ rs2 ++ 0b10#2)
  | .cSdsp rs2 uimm => .parcel (encCsdsp 0b111#3 uimm rs2)

/-! ## The expansion of a compressed instruction (R700) -/

/-- `E(w)`: the 32-bit instruction a compressed one is executed as (R705 to R741); any other instruction is itself. -/
def expand : Instr → Instr
  | .lui rd imm => .lui rd imm
  | .auipc rd imm => .auipc rd imm
  | .jal rd offset => .jal rd offset
  | .jalr rd rs1 imm => .jalr rd rs1 imm
  | .beq rs1 rs2 offset => .beq rs1 rs2 offset
  | .bne rs1 rs2 offset => .bne rs1 rs2 offset
  | .blt rs1 rs2 offset => .blt rs1 rs2 offset
  | .bge rs1 rs2 offset => .bge rs1 rs2 offset
  | .bltu rs1 rs2 offset => .bltu rs1 rs2 offset
  | .bgeu rs1 rs2 offset => .bgeu rs1 rs2 offset
  | .lb rd rs1 imm => .lb rd rs1 imm
  | .lh rd rs1 imm => .lh rd rs1 imm
  | .lw rd rs1 imm => .lw rd rs1 imm
  | .ld rd rs1 imm => .ld rd rs1 imm
  | .lbu rd rs1 imm => .lbu rd rs1 imm
  | .lhu rd rs1 imm => .lhu rd rs1 imm
  | .lwu rd rs1 imm => .lwu rd rs1 imm
  | .sb rs2 rs1 imm => .sb rs2 rs1 imm
  | .sh rs2 rs1 imm => .sh rs2 rs1 imm
  | .sw rs2 rs1 imm => .sw rs2 rs1 imm
  | .sd rs2 rs1 imm => .sd rs2 rs1 imm
  | .addi rd rs1 imm => .addi rd rs1 imm
  | .slti rd rs1 imm => .slti rd rs1 imm
  | .sltiu rd rs1 imm => .sltiu rd rs1 imm
  | .xori rd rs1 imm => .xori rd rs1 imm
  | .ori rd rs1 imm => .ori rd rs1 imm
  | .andi rd rs1 imm => .andi rd rs1 imm
  | .slli rd rs1 shamt => .slli rd rs1 shamt
  | .srli rd rs1 shamt => .srli rd rs1 shamt
  | .srai rd rs1 shamt => .srai rd rs1 shamt
  | .add rd rs1 rs2 => .add rd rs1 rs2
  | .sub rd rs1 rs2 => .sub rd rs1 rs2
  | .sll rd rs1 rs2 => .sll rd rs1 rs2
  | .slt rd rs1 rs2 => .slt rd rs1 rs2
  | .sltu rd rs1 rs2 => .sltu rd rs1 rs2
  | .xor rd rs1 rs2 => .xor rd rs1 rs2
  | .srl rd rs1 rs2 => .srl rd rs1 rs2
  | .sra rd rs1 rs2 => .sra rd rs1 rs2
  | .or rd rs1 rs2 => .or rd rs1 rs2
  | .and rd rs1 rs2 => .and rd rs1 rs2
  | .fence fm pred succ rs1 rd => .fence fm pred succ rs1 rd
  | .fenceI imm rs1 rd => .fenceI imm rs1 rd
  | .ecall => .ecall
  | .ebreak => .ebreak
  | .addiw rd rs1 imm => .addiw rd rs1 imm
  | .slliw rd rs1 shamt => .slliw rd rs1 shamt
  | .srliw rd rs1 shamt => .srliw rd rs1 shamt
  | .sraiw rd rs1 shamt => .sraiw rd rs1 shamt
  | .addw rd rs1 rs2 => .addw rd rs1 rs2
  | .subw rd rs1 rs2 => .subw rd rs1 rs2
  | .sllw rd rs1 rs2 => .sllw rd rs1 rs2
  | .srlw rd rs1 rs2 => .srlw rd rs1 rs2
  | .sraw rd rs1 rs2 => .sraw rd rs1 rs2
  | .mul rd rs1 rs2 => .mul rd rs1 rs2
  | .mulh rd rs1 rs2 => .mulh rd rs1 rs2
  | .mulhsu rd rs1 rs2 => .mulhsu rd rs1 rs2
  | .mulhu rd rs1 rs2 => .mulhu rd rs1 rs2
  | .div rd rs1 rs2 => .div rd rs1 rs2
  | .divu rd rs1 rs2 => .divu rd rs1 rs2
  | .rem rd rs1 rs2 => .rem rd rs1 rs2
  | .remu rd rs1 rs2 => .remu rd rs1 rs2
  | .mulw rd rs1 rs2 => .mulw rd rs1 rs2
  | .divw rd rs1 rs2 => .divw rd rs1 rs2
  | .divuw rd rs1 rs2 => .divuw rd rs1 rs2
  | .remw rd rs1 rs2 => .remw rd rs1 rs2
  | .remuw rd rs1 rs2 => .remuw rd rs1 rs2
  | .lrW rd rs1 aq rl => .lrW rd rs1 aq rl
  | .scW rd rs1 rs2 aq rl => .scW rd rs1 rs2 aq rl
  | .lrD rd rs1 aq rl => .lrD rd rs1 aq rl
  | .scD rd rs1 rs2 aq rl => .scD rd rs1 rs2 aq rl
  | .amoswapW rd rs1 rs2 aq rl => .amoswapW rd rs1 rs2 aq rl
  | .amoaddW rd rs1 rs2 aq rl => .amoaddW rd rs1 rs2 aq rl
  | .amoxorW rd rs1 rs2 aq rl => .amoxorW rd rs1 rs2 aq rl
  | .amoandW rd rs1 rs2 aq rl => .amoandW rd rs1 rs2 aq rl
  | .amoorW rd rs1 rs2 aq rl => .amoorW rd rs1 rs2 aq rl
  | .amominW rd rs1 rs2 aq rl => .amominW rd rs1 rs2 aq rl
  | .amomaxW rd rs1 rs2 aq rl => .amomaxW rd rs1 rs2 aq rl
  | .amominuW rd rs1 rs2 aq rl => .amominuW rd rs1 rs2 aq rl
  | .amomaxuW rd rs1 rs2 aq rl => .amomaxuW rd rs1 rs2 aq rl
  | .amoswapD rd rs1 rs2 aq rl => .amoswapD rd rs1 rs2 aq rl
  | .amoaddD rd rs1 rs2 aq rl => .amoaddD rd rs1 rs2 aq rl
  | .amoxorD rd rs1 rs2 aq rl => .amoxorD rd rs1 rs2 aq rl
  | .amoandD rd rs1 rs2 aq rl => .amoandD rd rs1 rs2 aq rl
  | .amoorD rd rs1 rs2 aq rl => .amoorD rd rs1 rs2 aq rl
  | .amominD rd rs1 rs2 aq rl => .amominD rd rs1 rs2 aq rl
  | .amomaxD rd rs1 rs2 aq rl => .amomaxD rd rs1 rs2 aq rl
  | .amominuD rd rs1 rs2 aq rl => .amominuD rd rs1 rs2 aq rl
  | .amomaxuD rd rs1 rs2 aq rl => .amomaxuD rd rs1 rs2 aq rl
  | .csrrw rd csr rs1 => .csrrw rd csr rs1
  | .csrrs rd csr rs1 => .csrrs rd csr rs1
  | .csrrc rd csr rs1 => .csrrc rd csr rs1
  | .csrrwi rd csr uimm => .csrrwi rd csr uimm
  | .csrrsi rd csr uimm => .csrrsi rd csr uimm
  | .csrrci rd csr uimm => .csrrci rd csr uimm
  | .flw frd rs1 imm => .flw frd rs1 imm
  | .fsw frs2 rs1 imm => .fsw frs2 rs1 imm
  | .fmaddS frd frs1 frs2 frs3 rm => .fmaddS frd frs1 frs2 frs3 rm
  | .fmsubS frd frs1 frs2 frs3 rm => .fmsubS frd frs1 frs2 frs3 rm
  | .fnmsubS frd frs1 frs2 frs3 rm => .fnmsubS frd frs1 frs2 frs3 rm
  | .fnmaddS frd frs1 frs2 frs3 rm => .fnmaddS frd frs1 frs2 frs3 rm
  | .faddS frd frs1 frs2 rm => .faddS frd frs1 frs2 rm
  | .fsubS frd frs1 frs2 rm => .fsubS frd frs1 frs2 rm
  | .fmulS frd frs1 frs2 rm => .fmulS frd frs1 frs2 rm
  | .fdivS frd frs1 frs2 rm => .fdivS frd frs1 frs2 rm
  | .fsqrtS frd frs1 rm => .fsqrtS frd frs1 rm
  | .fsgnjS frd frs1 frs2 => .fsgnjS frd frs1 frs2
  | .fsgnjnS frd frs1 frs2 => .fsgnjnS frd frs1 frs2
  | .fsgnjxS frd frs1 frs2 => .fsgnjxS frd frs1 frs2
  | .fminS frd frs1 frs2 => .fminS frd frs1 frs2
  | .fmaxS frd frs1 frs2 => .fmaxS frd frs1 frs2
  | .fcvtWS rd frs1 rm => .fcvtWS rd frs1 rm
  | .fcvtWUS rd frs1 rm => .fcvtWUS rd frs1 rm
  | .fcvtLS rd frs1 rm => .fcvtLS rd frs1 rm
  | .fcvtLUS rd frs1 rm => .fcvtLUS rd frs1 rm
  | .fmvXW rd frs1 => .fmvXW rd frs1
  | .feqS rd frs1 frs2 => .feqS rd frs1 frs2
  | .fltS rd frs1 frs2 => .fltS rd frs1 frs2
  | .fleS rd frs1 frs2 => .fleS rd frs1 frs2
  | .fclassS rd frs1 => .fclassS rd frs1
  | .fcvtSW frd rs1 rm => .fcvtSW frd rs1 rm
  | .fcvtSWU frd rs1 rm => .fcvtSWU frd rs1 rm
  | .fcvtSL frd rs1 rm => .fcvtSL frd rs1 rm
  | .fcvtSLU frd rs1 rm => .fcvtSLU frd rs1 rm
  | .fmvWX frd rs1 => .fmvWX frd rs1
  | .fld frd rs1 imm => .fld frd rs1 imm
  | .fsd frs2 rs1 imm => .fsd frs2 rs1 imm
  | .fmaddD frd frs1 frs2 frs3 rm => .fmaddD frd frs1 frs2 frs3 rm
  | .fmsubD frd frs1 frs2 frs3 rm => .fmsubD frd frs1 frs2 frs3 rm
  | .fnmsubD frd frs1 frs2 frs3 rm => .fnmsubD frd frs1 frs2 frs3 rm
  | .fnmaddD frd frs1 frs2 frs3 rm => .fnmaddD frd frs1 frs2 frs3 rm
  | .faddD frd frs1 frs2 rm => .faddD frd frs1 frs2 rm
  | .fsubD frd frs1 frs2 rm => .fsubD frd frs1 frs2 rm
  | .fmulD frd frs1 frs2 rm => .fmulD frd frs1 frs2 rm
  | .fdivD frd frs1 frs2 rm => .fdivD frd frs1 frs2 rm
  | .fsqrtD frd frs1 rm => .fsqrtD frd frs1 rm
  | .fsgnjD frd frs1 frs2 => .fsgnjD frd frs1 frs2
  | .fsgnjnD frd frs1 frs2 => .fsgnjnD frd frs1 frs2
  | .fsgnjxD frd frs1 frs2 => .fsgnjxD frd frs1 frs2
  | .fminD frd frs1 frs2 => .fminD frd frs1 frs2
  | .fmaxD frd frs1 frs2 => .fmaxD frd frs1 frs2
  | .fcvtSD frd frs1 rm => .fcvtSD frd frs1 rm
  | .fcvtDS frd frs1 rm => .fcvtDS frd frs1 rm
  | .feqD rd frs1 frs2 => .feqD rd frs1 frs2
  | .fltD rd frs1 frs2 => .fltD rd frs1 frs2
  | .fleD rd frs1 frs2 => .fleD rd frs1 frs2
  | .fclassD rd frs1 => .fclassD rd frs1
  | .fcvtWD rd frs1 rm => .fcvtWD rd frs1 rm
  | .fcvtWUD rd frs1 rm => .fcvtWUD rd frs1 rm
  | .fcvtLD rd frs1 rm => .fcvtLD rd frs1 rm
  | .fcvtLUD rd frs1 rm => .fcvtLUD rd frs1 rm
  | .fmvXD rd frs1 => .fmvXD rd frs1
  | .fcvtDW frd rs1 rm => .fcvtDW frd rs1 rm
  | .fcvtDWU frd rs1 rm => .fcvtDWU frd rs1 rm
  | .fcvtDL frd rs1 rm => .fcvtDL frd rs1 rm
  | .fcvtDLU frd rs1 rm => .fcvtDLU frd rs1 rm
  | .fmvDX frd rs1 => .fmvDX frd rs1
  | .cAddi4spn rd nzuimm => .addi rd 2#5 (nzuimm.setWidth 12)
  | .cFld frd rs1 uimm => .fld frd rs1 (uimm.setWidth 12)
  | .cLw rd rs1 uimm => .lw rd rs1 (uimm.setWidth 12)
  | .cLd rd rs1 uimm => .ld rd rs1 (uimm.setWidth 12)
  | .cFsd frs2 rs1 uimm => .fsd frs2 rs1 (uimm.setWidth 12)
  | .cSw rs2 rs1 uimm => .sw rs2 rs1 (uimm.setWidth 12)
  | .cSd rs2 rs1 uimm => .sd rs2 rs1 (uimm.setWidth 12)
  | .cNop imm => .addi 0#5 0#5 (imm.signExtend 12)
  | .cAddi rd imm => .addi rd rd (imm.signExtend 12)
  | .cAddiw rd imm => .addiw rd rd (imm.signExtend 12)
  | .cLi rd imm => .addi rd 0#5 (imm.signExtend 12)
  | .cAddi16sp nzimm => .addi 2#5 2#5 (nzimm.signExtend 12)
  | .cLui rd nzimm => .lui rd ((nzimm.extractLsb' 12 6).signExtend 20)
  | .cSrli rd shamt => .srli rd rd shamt
  | .cSrai rd shamt => .srai rd rd shamt
  | .cAndi rd imm => .andi rd rd (imm.signExtend 12)
  | .cSub rd rs2 => .sub rd rd rs2
  | .cXor rd rs2 => .xor rd rd rs2
  | .cOr rd rs2 => .or rd rd rs2
  | .cAnd rd rs2 => .and rd rd rs2
  | .cSubw rd rs2 => .subw rd rd rs2
  | .cAddw rd rs2 => .addw rd rd rs2
  | .cJ offset => .jal 0#5 (offset.signExtend 21)
  | .cBeqz rs1 offset => .beq rs1 0#5 (offset.signExtend 13)
  | .cBnez rs1 offset => .bne rs1 0#5 (offset.signExtend 13)
  | .cSlli rd shamt => .slli rd rd shamt
  | .cFldsp frd uimm => .fld frd 2#5 (uimm.setWidth 12)
  | .cLwsp rd uimm => .lw rd 2#5 (uimm.setWidth 12)
  | .cLdsp rd uimm => .ld rd 2#5 (uimm.setWidth 12)
  | .cJr rs1 => .jalr 0#5 rs1 0#12
  | .cMv rd rs2 => .add rd 0#5 rs2
  | .cEbreak => .ebreak
  | .cJalr rs1 => .jalr 1#5 rs1 0#12
  | .cAdd rd rs2 => .add rd rd rs2
  | .cFsdsp frs2 uimm => .fsd frs2 2#5 (uimm.setWidth 12)
  | .cSwsp rs2 uimm => .sw rs2 2#5 (uimm.setWidth 12)
  | .cSdsp rs2 uimm => .sd rs2 2#5 (uimm.setWidth 12)

/-! ## The decoder's output (R8) -/

/-- The fields of a decoded operation beside its mnemonic and its length (R8), each zero unless the instruction uses it. The
register fields hold integer or floating-point indices, as the instruction says (R155); `imm` is assembled, extended to 64
bits and scaled (R160). -/
structure OpFields where
  rd   : BitVec 5 := 0#5
  rs1  : BitVec 5 := 0#5
  rs2  : BitVec 5 := 0#5
  rs3  : BitVec 5 := 0#5
  imm  : Word := 0#64
  rm   : BitVec 3 := 0#3
  aq   : Bool := false
  rl   : Bool := false
  csr  : BitVec 12 := 0#12
  pred : BitVec 4 := 0#4
  succ : BitVec 4 := 0#4
  fm   : BitVec 4 := 0#4
deriving DecidableEq, Repr

/-- The record `DecodedOp` of R8: the mnemonic with compressed forms expanded (R10), the width of the encoding, and the
fields. -/
structure DecodedOp extends OpFields where
  op  : String
  len : Nat
deriving DecidableEq, Repr

/-- The fields a 32-bit instruction uses (R154 to R169). FENCE and FENCE.I ignore their registers, and FENCE.I its immediate
(R168, R651). A compressed instruction has those of its expansion and is not asked here. -/
def opFields : Instr → OpFields
  | .lui rd imm => { rd, imm := (imm ++ 0#12).signExtend 64 }
  | .auipc rd imm => { rd, imm := (imm ++ 0#12).signExtend 64 }
  | .jal rd offset => { rd, imm := offset.signExtend 64 }
  | .jalr rd rs1 imm => { rd, rs1, imm := imm.signExtend 64 }
  | .beq rs1 rs2 offset => { rs1, rs2, imm := offset.signExtend 64 }
  | .bne rs1 rs2 offset => { rs1, rs2, imm := offset.signExtend 64 }
  | .blt rs1 rs2 offset => { rs1, rs2, imm := offset.signExtend 64 }
  | .bge rs1 rs2 offset => { rs1, rs2, imm := offset.signExtend 64 }
  | .bltu rs1 rs2 offset => { rs1, rs2, imm := offset.signExtend 64 }
  | .bgeu rs1 rs2 offset => { rs1, rs2, imm := offset.signExtend 64 }
  | .lb rd rs1 imm => { rd, rs1, imm := imm.signExtend 64 }
  | .lh rd rs1 imm => { rd, rs1, imm := imm.signExtend 64 }
  | .lw rd rs1 imm => { rd, rs1, imm := imm.signExtend 64 }
  | .ld rd rs1 imm => { rd, rs1, imm := imm.signExtend 64 }
  | .lbu rd rs1 imm => { rd, rs1, imm := imm.signExtend 64 }
  | .lhu rd rs1 imm => { rd, rs1, imm := imm.signExtend 64 }
  | .lwu rd rs1 imm => { rd, rs1, imm := imm.signExtend 64 }
  | .sb rs2 rs1 imm => { rs2, rs1, imm := imm.signExtend 64 }
  | .sh rs2 rs1 imm => { rs2, rs1, imm := imm.signExtend 64 }
  | .sw rs2 rs1 imm => { rs2, rs1, imm := imm.signExtend 64 }
  | .sd rs2 rs1 imm => { rs2, rs1, imm := imm.signExtend 64 }
  | .addi rd rs1 imm => { rd, rs1, imm := imm.signExtend 64 }
  | .slti rd rs1 imm => { rd, rs1, imm := imm.signExtend 64 }
  | .sltiu rd rs1 imm => { rd, rs1, imm := imm.signExtend 64 }
  | .xori rd rs1 imm => { rd, rs1, imm := imm.signExtend 64 }
  | .ori rd rs1 imm => { rd, rs1, imm := imm.signExtend 64 }
  | .andi rd rs1 imm => { rd, rs1, imm := imm.signExtend 64 }
  | .slli rd rs1 shamt => { rd, rs1, imm := shamt.setWidth 64 }
  | .srli rd rs1 shamt => { rd, rs1, imm := shamt.setWidth 64 }
  | .srai rd rs1 shamt => { rd, rs1, imm := shamt.setWidth 64 }
  | .add rd rs1 rs2 => { rd, rs1, rs2 }
  | .sub rd rs1 rs2 => { rd, rs1, rs2 }
  | .sll rd rs1 rs2 => { rd, rs1, rs2 }
  | .slt rd rs1 rs2 => { rd, rs1, rs2 }
  | .sltu rd rs1 rs2 => { rd, rs1, rs2 }
  | .xor rd rs1 rs2 => { rd, rs1, rs2 }
  | .srl rd rs1 rs2 => { rd, rs1, rs2 }
  | .sra rd rs1 rs2 => { rd, rs1, rs2 }
  | .or rd rs1 rs2 => { rd, rs1, rs2 }
  | .and rd rs1 rs2 => { rd, rs1, rs2 }
  | .fence fm pred succ _ _ => { fm, pred, succ }
  | .fenceI .. => {}
  | .ecall => {}
  | .ebreak => {}
  | .addiw rd rs1 imm => { rd, rs1, imm := imm.signExtend 64 }
  | .slliw rd rs1 shamt => { rd, rs1, imm := shamt.setWidth 64 }
  | .srliw rd rs1 shamt => { rd, rs1, imm := shamt.setWidth 64 }
  | .sraiw rd rs1 shamt => { rd, rs1, imm := shamt.setWidth 64 }
  | .addw rd rs1 rs2 => { rd, rs1, rs2 }
  | .subw rd rs1 rs2 => { rd, rs1, rs2 }
  | .sllw rd rs1 rs2 => { rd, rs1, rs2 }
  | .srlw rd rs1 rs2 => { rd, rs1, rs2 }
  | .sraw rd rs1 rs2 => { rd, rs1, rs2 }
  | .mul rd rs1 rs2 => { rd, rs1, rs2 }
  | .mulh rd rs1 rs2 => { rd, rs1, rs2 }
  | .mulhsu rd rs1 rs2 => { rd, rs1, rs2 }
  | .mulhu rd rs1 rs2 => { rd, rs1, rs2 }
  | .div rd rs1 rs2 => { rd, rs1, rs2 }
  | .divu rd rs1 rs2 => { rd, rs1, rs2 }
  | .rem rd rs1 rs2 => { rd, rs1, rs2 }
  | .remu rd rs1 rs2 => { rd, rs1, rs2 }
  | .mulw rd rs1 rs2 => { rd, rs1, rs2 }
  | .divw rd rs1 rs2 => { rd, rs1, rs2 }
  | .divuw rd rs1 rs2 => { rd, rs1, rs2 }
  | .remw rd rs1 rs2 => { rd, rs1, rs2 }
  | .remuw rd rs1 rs2 => { rd, rs1, rs2 }
  | .lrW rd rs1 aq rl => { rd, rs1, aq, rl }
  | .scW rd rs1 rs2 aq rl => { rd, rs1, rs2, aq, rl }
  | .lrD rd rs1 aq rl => { rd, rs1, aq, rl }
  | .scD rd rs1 rs2 aq rl => { rd, rs1, rs2, aq, rl }
  | .amoswapW rd rs1 rs2 aq rl => { rd, rs1, rs2, aq, rl }
  | .amoaddW rd rs1 rs2 aq rl => { rd, rs1, rs2, aq, rl }
  | .amoxorW rd rs1 rs2 aq rl => { rd, rs1, rs2, aq, rl }
  | .amoandW rd rs1 rs2 aq rl => { rd, rs1, rs2, aq, rl }
  | .amoorW rd rs1 rs2 aq rl => { rd, rs1, rs2, aq, rl }
  | .amominW rd rs1 rs2 aq rl => { rd, rs1, rs2, aq, rl }
  | .amomaxW rd rs1 rs2 aq rl => { rd, rs1, rs2, aq, rl }
  | .amominuW rd rs1 rs2 aq rl => { rd, rs1, rs2, aq, rl }
  | .amomaxuW rd rs1 rs2 aq rl => { rd, rs1, rs2, aq, rl }
  | .amoswapD rd rs1 rs2 aq rl => { rd, rs1, rs2, aq, rl }
  | .amoaddD rd rs1 rs2 aq rl => { rd, rs1, rs2, aq, rl }
  | .amoxorD rd rs1 rs2 aq rl => { rd, rs1, rs2, aq, rl }
  | .amoandD rd rs1 rs2 aq rl => { rd, rs1, rs2, aq, rl }
  | .amoorD rd rs1 rs2 aq rl => { rd, rs1, rs2, aq, rl }
  | .amominD rd rs1 rs2 aq rl => { rd, rs1, rs2, aq, rl }
  | .amomaxD rd rs1 rs2 aq rl => { rd, rs1, rs2, aq, rl }
  | .amominuD rd rs1 rs2 aq rl => { rd, rs1, rs2, aq, rl }
  | .amomaxuD rd rs1 rs2 aq rl => { rd, rs1, rs2, aq, rl }
  | .csrrw rd csr rs1 => { rd, csr := csr.number, rs1 }
  | .csrrs rd csr rs1 => { rd, csr := csr.number, rs1 }
  | .csrrc rd csr rs1 => { rd, csr := csr.number, rs1 }
  | .csrrwi rd csr uimm => { rd, csr := csr.number, imm := uimm.setWidth 64 }
  | .csrrsi rd csr uimm => { rd, csr := csr.number, imm := uimm.setWidth 64 }
  | .csrrci rd csr uimm => { rd, csr := csr.number, imm := uimm.setWidth 64 }
  | .flw frd rs1 imm => { rd := frd, rs1, imm := imm.signExtend 64 }
  | .fsw frs2 rs1 imm => { rs2 := frs2, rs1, imm := imm.signExtend 64 }
  | .fmaddS frd frs1 frs2 frs3 rm => { rd := frd, rs1 := frs1, rs2 := frs2, rs3 := frs3, rm := rm.toBits }
  | .fmsubS frd frs1 frs2 frs3 rm => { rd := frd, rs1 := frs1, rs2 := frs2, rs3 := frs3, rm := rm.toBits }
  | .fnmsubS frd frs1 frs2 frs3 rm => { rd := frd, rs1 := frs1, rs2 := frs2, rs3 := frs3, rm := rm.toBits }
  | .fnmaddS frd frs1 frs2 frs3 rm => { rd := frd, rs1 := frs1, rs2 := frs2, rs3 := frs3, rm := rm.toBits }
  | .faddS frd frs1 frs2 rm => { rd := frd, rs1 := frs1, rs2 := frs2, rm := rm.toBits }
  | .fsubS frd frs1 frs2 rm => { rd := frd, rs1 := frs1, rs2 := frs2, rm := rm.toBits }
  | .fmulS frd frs1 frs2 rm => { rd := frd, rs1 := frs1, rs2 := frs2, rm := rm.toBits }
  | .fdivS frd frs1 frs2 rm => { rd := frd, rs1 := frs1, rs2 := frs2, rm := rm.toBits }
  | .fsqrtS frd frs1 rm => { rd := frd, rs1 := frs1, rm := rm.toBits }
  | .fsgnjS frd frs1 frs2 => { rd := frd, rs1 := frs1, rs2 := frs2 }
  | .fsgnjnS frd frs1 frs2 => { rd := frd, rs1 := frs1, rs2 := frs2 }
  | .fsgnjxS frd frs1 frs2 => { rd := frd, rs1 := frs1, rs2 := frs2 }
  | .fminS frd frs1 frs2 => { rd := frd, rs1 := frs1, rs2 := frs2 }
  | .fmaxS frd frs1 frs2 => { rd := frd, rs1 := frs1, rs2 := frs2 }
  | .fcvtWS rd frs1 rm => { rd, rs1 := frs1, rm := rm.toBits }
  | .fcvtWUS rd frs1 rm => { rd, rs1 := frs1, rm := rm.toBits }
  | .fcvtLS rd frs1 rm => { rd, rs1 := frs1, rm := rm.toBits }
  | .fcvtLUS rd frs1 rm => { rd, rs1 := frs1, rm := rm.toBits }
  | .fmvXW rd frs1 => { rd, rs1 := frs1 }
  | .feqS rd frs1 frs2 => { rd, rs1 := frs1, rs2 := frs2 }
  | .fltS rd frs1 frs2 => { rd, rs1 := frs1, rs2 := frs2 }
  | .fleS rd frs1 frs2 => { rd, rs1 := frs1, rs2 := frs2 }
  | .fclassS rd frs1 => { rd, rs1 := frs1 }
  | .fcvtSW frd rs1 rm => { rd := frd, rs1, rm := rm.toBits }
  | .fcvtSWU frd rs1 rm => { rd := frd, rs1, rm := rm.toBits }
  | .fcvtSL frd rs1 rm => { rd := frd, rs1, rm := rm.toBits }
  | .fcvtSLU frd rs1 rm => { rd := frd, rs1, rm := rm.toBits }
  | .fmvWX frd rs1 => { rd := frd, rs1 }
  | .fld frd rs1 imm => { rd := frd, rs1, imm := imm.signExtend 64 }
  | .fsd frs2 rs1 imm => { rs2 := frs2, rs1, imm := imm.signExtend 64 }
  | .fmaddD frd frs1 frs2 frs3 rm => { rd := frd, rs1 := frs1, rs2 := frs2, rs3 := frs3, rm := rm.toBits }
  | .fmsubD frd frs1 frs2 frs3 rm => { rd := frd, rs1 := frs1, rs2 := frs2, rs3 := frs3, rm := rm.toBits }
  | .fnmsubD frd frs1 frs2 frs3 rm => { rd := frd, rs1 := frs1, rs2 := frs2, rs3 := frs3, rm := rm.toBits }
  | .fnmaddD frd frs1 frs2 frs3 rm => { rd := frd, rs1 := frs1, rs2 := frs2, rs3 := frs3, rm := rm.toBits }
  | .faddD frd frs1 frs2 rm => { rd := frd, rs1 := frs1, rs2 := frs2, rm := rm.toBits }
  | .fsubD frd frs1 frs2 rm => { rd := frd, rs1 := frs1, rs2 := frs2, rm := rm.toBits }
  | .fmulD frd frs1 frs2 rm => { rd := frd, rs1 := frs1, rs2 := frs2, rm := rm.toBits }
  | .fdivD frd frs1 frs2 rm => { rd := frd, rs1 := frs1, rs2 := frs2, rm := rm.toBits }
  | .fsqrtD frd frs1 rm => { rd := frd, rs1 := frs1, rm := rm.toBits }
  | .fsgnjD frd frs1 frs2 => { rd := frd, rs1 := frs1, rs2 := frs2 }
  | .fsgnjnD frd frs1 frs2 => { rd := frd, rs1 := frs1, rs2 := frs2 }
  | .fsgnjxD frd frs1 frs2 => { rd := frd, rs1 := frs1, rs2 := frs2 }
  | .fminD frd frs1 frs2 => { rd := frd, rs1 := frs1, rs2 := frs2 }
  | .fmaxD frd frs1 frs2 => { rd := frd, rs1 := frs1, rs2 := frs2 }
  | .fcvtSD frd frs1 rm => { rd := frd, rs1 := frs1, rm := rm.toBits }
  | .fcvtDS frd frs1 rm => { rd := frd, rs1 := frs1, rm := rm.toBits }
  | .feqD rd frs1 frs2 => { rd, rs1 := frs1, rs2 := frs2 }
  | .fltD rd frs1 frs2 => { rd, rs1 := frs1, rs2 := frs2 }
  | .fleD rd frs1 frs2 => { rd, rs1 := frs1, rs2 := frs2 }
  | .fclassD rd frs1 => { rd, rs1 := frs1 }
  | .fcvtWD rd frs1 rm => { rd, rs1 := frs1, rm := rm.toBits }
  | .fcvtWUD rd frs1 rm => { rd, rs1 := frs1, rm := rm.toBits }
  | .fcvtLD rd frs1 rm => { rd, rs1 := frs1, rm := rm.toBits }
  | .fcvtLUD rd frs1 rm => { rd, rs1 := frs1, rm := rm.toBits }
  | .fmvXD rd frs1 => { rd, rs1 := frs1 }
  | .fcvtDW frd rs1 rm => { rd := frd, rs1, rm := rm.toBits }
  | .fcvtDWU frd rs1 rm => { rd := frd, rs1, rm := rm.toBits }
  | .fcvtDL frd rs1 rm => { rd := frd, rs1, rm := rm.toBits }
  | .fcvtDLU frd rs1 rm => { rd := frd, rs1, rm := rm.toBits }
  | .fmvDX frd rs1 => { rd := frd, rs1 }
  | .cAddi4spn .. => {}
  | .cFld .. => {}
  | .cLw .. => {}
  | .cLd .. => {}
  | .cFsd .. => {}
  | .cSw .. => {}
  | .cSd .. => {}
  | .cNop .. => {}
  | .cAddi .. => {}
  | .cAddiw .. => {}
  | .cLi .. => {}
  | .cAddi16sp .. => {}
  | .cLui .. => {}
  | .cSrli .. => {}
  | .cSrai .. => {}
  | .cAndi .. => {}
  | .cSub .. => {}
  | .cXor .. => {}
  | .cOr .. => {}
  | .cAnd .. => {}
  | .cSubw .. => {}
  | .cAddw .. => {}
  | .cJ .. => {}
  | .cBeqz .. => {}
  | .cBnez .. => {}
  | .cSlli .. => {}
  | .cFldsp .. => {}
  | .cLwsp .. => {}
  | .cLdsp .. => {}
  | .cJr .. => {}
  | .cMv .. => {}
  | .cEbreak => {}
  | .cJalr .. => {}
  | .cAdd .. => {}
  | .cFsdsp .. => {}
  | .cSwsp .. => {}
  | .cSdsp .. => {}

/-- The decoder's record of an instruction (R8): that of its expansion, with its own length (R10). -/
def Instr.decodedOp (i : Instr) : DecodedOp :=
  { opFields (expand i) with op := (expand i).mnemonic, len := i.len }

end Sys2Proof
end

