-- ==== Sys2Proof/Machine/Fetch.lean ====
section
/-! DEFINITION. Fetch and decode at the start of a step (R151 to R153, R802 items 1 to 5): parcel by parcel from memory,
the length decision, the opcode table, and IMPLEMENTED. -/

namespace Sys2Proof.Machine

/-- What the front end hands to the dispatcher: an instruction as its constructor, whose record is `Instr.decodedOp` (R8), or
the stop event of the fetch or the decode. -/
inductive Fetched where
  | instr (i : Instr)
  | stop (e : StopEvent)
deriving DecidableEq, Repr

/-- `IFetch(a)` (R8, R151): the little-endian parcel at `a`, if both bytes are mapped for fetch. -/
def fetchParcel (s : State) (a : Word) : Option (BitVec 16) :=
  if (failingBytes s.params [.fetch] a 2).isEmpty then
    some (byteAt s.mem (a + 1#64).toNat ++ byteAt s.mem a.toNat)
  else none

/-- The decoder's answer on an encoding `w` (R153): a row's instruction, unless IMPLEMENTED leaves its mnemonic out. -/
def accept (s : State) (w : BitVec 32) : Option Instr → Fetched
  | some i => if s.params.withheld.contains i.mnemonic then .stop (.decodeFailure w) else .instr i
  | none => .stop (.decodeFailure w)

/-- Fetch and decode (R151, in the order of R802). The second parcel is read only when the first says 32 bits; a failing
fetch reports the address of its parcel (R801), and a decode failure the whole encoding (R815). -/
def fetchInstr (s : State) : Fetched :=
  if s.pc.getLsbD 0 then .stop (.misalignedFetch s.pc)
  else
    match fetchParcel s s.pc with
    | none => .stop (.memoryFault s.pc .fetch)
    | some p0 =>
      match parcelKind p0 with
      | .compressed => accept s (p0.setWidth 32) (decode16 p0)
      | .standard =>
        match fetchParcel s (s.pc + 2#64) with
        | none => .stop (.memoryFault (s.pc + 2#64) .fetch)
        | some p1 => accept s (p1 ++ p0) (decode32 (p1 ++ p0))
      | .long => .stop (.decodeFailure (p0.setWidth 32))

/-- What DEC puts out for the step of `s` (R8): the decoded operation, or the stop event, which is DecodeFailure with the word
or that of the fetch port. -/
def decoderOutput (s : State) : StopEvent ⊕ DecodedOp :=
  match fetchInstr s with
  | .instr i => .inr i.decodedOp
  | .stop e => .inl e

/-- The first of these addresses, each given a region of its own where it is not mapped for fetch. -/
def mapForFetch (p : Params) : List Word → List Region
  | [] => p.mapping
  | a :: as =>
    if mapped p a .fetch then mapForFetch p as
    else { base := a.toNat, size := 1, read := false, write := false, fetch := true } :: mapForFetch p as

/-- The state with the bytes stored at the even pc and mapped for fetch, and the hart running. -/
def placeAtPc (s : State) (bytes : List Byte) : State :=
  let pc := s.pc &&& ~~~1#64
  let addrs := accessBytes pc bytes.length
  { s with
    pc := pc
    mem := writeBytes s.mem (addrs.zip bytes)
    params := { s.params with mapping := mapForFetch s.params addrs }
    status := .running }

end Sys2Proof.Machine
end

