-- ==== Sys2Proof/Machine/Step.lean ====
section
/-! DEFINITION. One step of the hart (R7), and the placing of one instruction where the next step fetches it. -/

namespace Sys2Proof.Machine

/-- One step (R7): a running hart fetches, decodes and executes one instruction, or takes the stop event of the fetch;
a stopped hart waits for the host (R655) or is stopped for good (R805); an ended one takes no step (R852). -/
def step (s : State) : Host.Outcome State Fault Refusal :=
  match s.status with
  | .running =>
    match fetchInstr s with
    | .instr i => exec i s
    | .stop e => raise e s
  | .stopped r => afterStop r s
  | .ended v => .fault (.hartEnded v)

/-- The state with a table word of `nbits` bits placed at its pc, so that the next step fetches and runs it: the load the
host makes at launch (R851 items 1, 2 and 4). -/
def State.withFetchWord (s : State) (nbits w : Nat) : State := placeAtPc s (tableBytes nbits w)

end Sys2Proof.Machine
end

