-- ==== Sys2Proof/Machine/Events.lean ====
section
/-! DEFINITION. The memory events of a step (R120, R121): what each instruction asks of the load-store unit, the order
its aq and rl bits select (R127), and the events a step of the hart makes, with their places in its program order. They are
what another hart could observe; the state of the one hart holds none of them (R67). -/

namespace Sys2Proof.Machine

/-- The order an event carries (R120); a plain access counts as relaxed in every rule. -/
inductive Order where
  | plain
  | relaxed
  | acquire
  | release
  | acqRel
deriving DecidableEq, Repr

/-- The order of an AMO (R127). -/
def amoOrder (aq rl : Bool) : Order :=
  match aq, rl with
  | false, false => .relaxed
  | true, false => .acquire
  | false, true => .release
  | true, true => .acqRel

/-- The order of an LR, a read (R127): rl counts for nothing. -/
def lrOrder (aq _rl : Bool) : Order := if aq then .acquire else .relaxed

/-- The order of an SC, a write (R127): aq counts for nothing. -/
def scOrder (_aq rl : Bool) : Order := if rl then .release else .relaxed

/-- Whether the read half of an event acquires (R123). -/
def Order.acquires : Order → Bool
  | .plain => false
  | .relaxed => false
  | .acquire => true
  | .release => false
  | .acqRel => true

/-- Whether the write half of an event releases (R123). -/
def Order.releases : Order → Bool
  | .plain => false
  | .relaxed => false
  | .acquire => false
  | .release => true
  | .acqRel => true

/-- The kind of an event (R120). -/
inductive EventKind where
  | read
  | write
  | rmw
  | fence
deriving DecidableEq, Repr

/-- Whose event it is (R6, R120): a hart's, or the host's own, which are the initial values (R122) and what it wrote before
it launched the first hart (R851). -/
inductive Agent where
  | host
  | hart (n : Nat)
deriving DecidableEq, Repr

/-- A place in one hart's program order (R121): the number of the instruction, and the place within its step (R120): 0 for
the first parcel, 1 for the second, 2 for the data access, the fence, or what the host writes during an ECALL. Events at
one place are in no order among themselves: the one-byte accesses of a split access (R107), and one call's host writes. -/
structure Position where
  instr : Nat
  slot  : Nat
deriving DecidableEq, Repr

/-- One place comes before another: by step, then by the order within the step (R121). -/
abbrev Position.before (p q : Position) : Prop := p.instr < q.instr ∨ (p.instr = q.instr ∧ p.slot < q.slot)

/-- One event (R120): whose it is and where in program order, its kind, its bytes from `addr` on, the values it reads and
writes, and its order. `continues`: its write continues a release sequence, an AMO's or an SC's in reserve mode (R123).
`reserves`: it is the read of an LR in reserve mode (R612). `byHost`: the host made it, an initial value or a write during a
system call (R120, R122). -/
structure MemEvent where
  agent      : Agent
  pos        : Position
  kind       : EventKind
  addr       : Word
  bytes      : Nat
  readValue  : Option Word
  writeValue : Option Word
  order      : Order
  continues  : Bool
  reserves   : Bool
  byHost     : Bool
deriving DecidableEq, Repr

/-- A read event at a place of the hart of `s`. -/
def readEvent (s : State) (p : Position) (a : Word) (n : Nat) (o : Order) (reserves : Bool) : MemEvent where
  agent := .hart s.hart
  pos := p
  kind := .read
  addr := a
  bytes := n
  readValue := some (memRead s.mem a n)
  writeValue := none
  order := o
  continues := false
  reserves := reserves
  byHost := false

/-- A write event at a place of the hart of `s`. -/
def writeEvent (s : State) (p : Position) (a : Word) (n : Nat) (v : Word) (o : Order) (continues : Bool) : MemEvent where
  agent := .hart s.hart
  pos := p
  kind := .write
  addr := a
  bytes := n
  readValue := none
  writeValue := some (zextBytes n v)
  order := o
  continues := continues
  reserves := false
  byHost := false

/-- An AMO's event: one read-modify-write (R120, R601). -/
def amoEvent (s : State) (p : Position) (a : Word) (n : Nat) (new : Word) (o : Order) : MemEvent where
  agent := .hart s.hart
  pos := p
  kind := .rmw
  addr := a
  bytes := n
  readValue := some (memRead s.mem a n)
  writeValue := some new
  order := o
  continues := true
  reserves := false
  byHost := false

/-- A FENCE's event (R650): whatever pred, succ and fm, one sequentially consistent fence (R124). -/
def fenceEvent (s : State) (p : Position) : MemEvent where
  agent := .hart s.hart
  pos := p
  kind := .fence
  addr := 0#64
  bytes := 0
  readValue := none
  writeValue := none
  order := .acqRel
  continues := false
  reserves := false
  byHost := false

/-- A byte the host writes during a system call of the hart of `s`: an event of that hart (R120). -/
def hostWriteEvent (s : State) (p : Position) (c : Word × Byte) : MemEvent :=
  { writeEvent s p c.1 1 (c.2.setWidth 64) .plain false with byHost := true }

/-- The events of an admitted request (R120, R601, R610, R612, R613). A misaligned plain access, which only `split`
admits, is n one-byte events at one place (R107, R110); a failing SC makes none (R613). -/
def requestEvents (q : LsuReq) (p : Position) (s : State) : List MemEvent :=
  match q with
  | .load a n =>
    if a.toNat % n = 0 then [readEvent s p a n .plain false]
    else (accessBytes a n).map fun b => readEvent s p b 1 .plain false
  | .store a n v =>
    if a.toNat % n = 0 then [writeEvent s p a n v .plain false]
    else (List.range n).map fun i => writeEvent s p (a + BitVec.ofNat 64 i) 1 (v >>> (8 * i)) .plain false
  | .loadReserved a n aq rl => [readEvent s p a n (lrOrder aq rl) (decide (s.params.lrscMode = .reserve))]
  | .storeConditional a n v aq rl =>
    if s.scSucceeds a n then [writeEvent s p a n v (scOrder aq rl) (decide (s.params.lrscMode = .reserve))] else []
  | .amo kind a n v aq rl => [amoEvent s p a n (amoResult kind n (memRead s.mem a n) v) (amoOrder aq rl)]

/-- What a 32-bit instruction asks of the load-store unit, if anything (R14, R109, R120). -/
def baseRequest (s : State) : Instr → Option LsuReq
  | .lui .. => none
  | .auipc .. => none
  | .jal .. => none
  | .jalr .. => none
  | .beq .. => none
  | .bne .. => none
  | .blt .. => none
  | .bge .. => none
  | .bltu .. => none
  | .bgeu .. => none
  | .lb _ rs1 imm => some (.load (s.addr rs1 imm) 1)
  | .lh _ rs1 imm => some (.load (s.addr rs1 imm) 2)
  | .lw _ rs1 imm => some (.load (s.addr rs1 imm) 4)
  | .ld _ rs1 imm => some (.load (s.addr rs1 imm) 8)
  | .lbu _ rs1 imm => some (.load (s.addr rs1 imm) 1)
  | .lhu _ rs1 imm => some (.load (s.addr rs1 imm) 2)
  | .lwu _ rs1 imm => some (.load (s.addr rs1 imm) 4)
  | .sb rs2 rs1 imm => some (.store (s.addr rs1 imm) 1 (s.rx rs2))
  | .sh rs2 rs1 imm => some (.store (s.addr rs1 imm) 2 (s.rx rs2))
  | .sw rs2 rs1 imm => some (.store (s.addr rs1 imm) 4 (s.rx rs2))
  | .sd rs2 rs1 imm => some (.store (s.addr rs1 imm) 8 (s.rx rs2))
  | .addi .. => none
  | .slti .. => none
  | .sltiu .. => none
  | .xori .. => none
  | .ori .. => none
  | .andi .. => none
  | .slli .. => none
  | .srli .. => none
  | .srai .. => none
  | .add .. => none
  | .sub .. => none
  | .sll .. => none
  | .slt .. => none
  | .sltu .. => none
  | .xor .. => none
  | .srl .. => none
  | .sra .. => none
  | .or .. => none
  | .and .. => none
  | .fence .. => none
  | .fenceI .. => none
  | .ecall => none
  | .ebreak => none
  | .addiw .. => none
  | .slliw .. => none
  | .srliw .. => none
  | .sraiw .. => none
  | .addw .. => none
  | .subw .. => none
  | .sllw .. => none
  | .srlw .. => none
  | .sraw .. => none
  | .mul .. => none
  | .mulh .. => none
  | .mulhsu .. => none
  | .mulhu .. => none
  | .div .. => none
  | .divu .. => none
  | .rem .. => none
  | .remu .. => none
  | .mulw .. => none
  | .divw .. => none
  | .divuw .. => none
  | .remw .. => none
  | .remuw .. => none
  | .lrW _ rs1 aq rl => some (.loadReserved (s.rx rs1) 4 aq rl)
  | .scW _ rs1 rs2 aq rl => some (.storeConditional (s.rx rs1) 4 (s.rx rs2) aq rl)
  | .lrD _ rs1 aq rl => some (.loadReserved (s.rx rs1) 8 aq rl)
  | .scD _ rs1 rs2 aq rl => some (.storeConditional (s.rx rs1) 8 (s.rx rs2) aq rl)
  | .amoswapW _ rs1 rs2 aq rl => some (.amo .swap (s.rx rs1) 4 (s.rx rs2) aq rl)
  | .amoaddW _ rs1 rs2 aq rl => some (.amo .add (s.rx rs1) 4 (s.rx rs2) aq rl)
  | .amoxorW _ rs1 rs2 aq rl => some (.amo .xor (s.rx rs1) 4 (s.rx rs2) aq rl)
  | .amoandW _ rs1 rs2 aq rl => some (.amo .and (s.rx rs1) 4 (s.rx rs2) aq rl)
  | .amoorW _ rs1 rs2 aq rl => some (.amo .or (s.rx rs1) 4 (s.rx rs2) aq rl)
  | .amominW _ rs1 rs2 aq rl => some (.amo .min (s.rx rs1) 4 (s.rx rs2) aq rl)
  | .amomaxW _ rs1 rs2 aq rl => some (.amo .max (s.rx rs1) 4 (s.rx rs2) aq rl)
  | .amominuW _ rs1 rs2 aq rl => some (.amo .minu (s.rx rs1) 4 (s.rx rs2) aq rl)
  | .amomaxuW _ rs1 rs2 aq rl => some (.amo .maxu (s.rx rs1) 4 (s.rx rs2) aq rl)
  | .amoswapD _ rs1 rs2 aq rl => some (.amo .swap (s.rx rs1) 8 (s.rx rs2) aq rl)
  | .amoaddD _ rs1 rs2 aq rl => some (.amo .add (s.rx rs1) 8 (s.rx rs2) aq rl)
  | .amoxorD _ rs1 rs2 aq rl => some (.amo .xor (s.rx rs1) 8 (s.rx rs2) aq rl)
  | .amoandD _ rs1 rs2 aq rl => some (.amo .and (s.rx rs1) 8 (s.rx rs2) aq rl)
  | .amoorD _ rs1 rs2 aq rl => some (.amo .or (s.rx rs1) 8 (s.rx rs2) aq rl)
  | .amominD _ rs1 rs2 aq rl => some (.amo .min (s.rx rs1) 8 (s.rx rs2) aq rl)
  | .amomaxD _ rs1 rs2 aq rl => some (.amo .max (s.rx rs1) 8 (s.rx rs2) aq rl)
  | .amominuD _ rs1 rs2 aq rl => some (.amo .minu (s.rx rs1) 8 (s.rx rs2) aq rl)
  | .amomaxuD _ rs1 rs2 aq rl => some (.amo .maxu (s.rx rs1) 8 (s.rx rs2) aq rl)
  | .csrrw .. => none
  | .csrrs .. => none
  | .csrrc .. => none
  | .csrrwi .. => none
  | .csrrsi .. => none
  | .csrrci .. => none
  | .flw _ rs1 imm => some (.load (s.addr rs1 imm) 4)
  | .fsw frs2 rs1 imm => some (.store (s.addr rs1 imm) 4 (s.rf frs2))
  | .fmaddS .. => none
  | .fmsubS .. => none
  | .fnmsubS .. => none
  | .fnmaddS .. => none
  | .faddS .. => none
  | .fsubS .. => none
  | .fmulS .. => none
  | .fdivS .. => none
  | .fsqrtS .. => none
  | .fsgnjS .. => none
  | .fsgnjnS .. => none
  | .fsgnjxS .. => none
  | .fminS .. => none
  | .fmaxS .. => none
  | .fcvtWS .. => none
  | .fcvtWUS .. => none
  | .fcvtLS .. => none
  | .fcvtLUS .. => none
  | .fmvXW .. => none
  | .feqS .. => none
  | .fltS .. => none
  | .fleS .. => none
  | .fclassS .. => none
  | .fcvtSW .. => none
  | .fcvtSWU .. => none
  | .fcvtSL .. => none
  | .fcvtSLU .. => none
  | .fmvWX .. => none
  | .fld _ rs1 imm => some (.load (s.addr rs1 imm) 8)
  | .fsd frs2 rs1 imm => some (.store (s.addr rs1 imm) 8 (s.rf frs2))
  | .fmaddD .. => none
  | .fmsubD .. => none
  | .fnmsubD .. => none
  | .fnmaddD .. => none
  | .faddD .. => none
  | .fsubD .. => none
  | .fmulD .. => none
  | .fdivD .. => none
  | .fsqrtD .. => none
  | .fsgnjD .. => none
  | .fsgnjnD .. => none
  | .fsgnjxD .. => none
  | .fminD .. => none
  | .fmaxD .. => none
  | .fcvtSD .. => none
  | .fcvtDS .. => none
  | .feqD .. => none
  | .fltD .. => none
  | .fleD .. => none
  | .fclassD .. => none
  | .fcvtWD .. => none
  | .fcvtWUD .. => none
  | .fcvtLD .. => none
  | .fcvtLUD .. => none
  | .fmvXD .. => none
  | .fcvtDW .. => none
  | .fcvtDWU .. => none
  | .fcvtDL .. => none
  | .fcvtDLU .. => none
  | .fmvDX .. => none
  | .cAddi4spn .. => none
  | .cFld .. => none
  | .cLw .. => none
  | .cLd .. => none
  | .cFsd .. => none
  | .cSw .. => none
  | .cSd .. => none
  | .cNop .. => none
  | .cAddi .. => none
  | .cAddiw .. => none
  | .cLi .. => none
  | .cAddi16sp .. => none
  | .cLui .. => none
  | .cSrli .. => none
  | .cSrai .. => none
  | .cAndi .. => none
  | .cSub .. => none
  | .cXor .. => none
  | .cOr .. => none
  | .cAnd .. => none
  | .cSubw .. => none
  | .cAddw .. => none
  | .cJ .. => none
  | .cBeqz .. => none
  | .cBnez .. => none
  | .cSlli .. => none
  | .cFldsp .. => none
  | .cLwsp .. => none
  | .cLdsp .. => none
  | .cJr .. => none
  | .cMv .. => none
  | .cEbreak => none
  | .cJalr .. => none
  | .cAdd .. => none
  | .cFsdsp .. => none
  | .cSwsp .. => none
  | .cSdsp .. => none

/-- What an instruction asks of the load-store unit: a compressed one asks what its expansion asks (R700). -/
def dataRequest (i : Instr) (s : State) : Option LsuReq := baseRequest s (expand i)

/-- Whether it is a FENCE (R650). -/
def isFence : Instr → Bool
  | .fence .. => true
  | _ => false

/-- The data events of the instruction numbered n (R120): none when it stops (R803). -/
def dataEvents (n : Nat) (i : Instr) (s : State) : List MemEvent :=
  if isFence i then [fenceEvent s ⟨n, 2⟩]
  else
    match dataRequest i s with
    | none => []
    | some q => if (admission q s).isNone then requestEvents q ⟨n, 2⟩ s else []

/-- The fetch reads of the step of instruction n (R120, R130, R151): one or two parcels, plain reads. -/
def fetchEvents (n : Nat) (s : State) : List MemEvent :=
  if s.pc.getLsbD 0 then []
  else
    match fetchParcel s s.pc with
    | none => []
    | some p0 =>
      if parcelKind p0 = .standard ∧ (fetchParcel s (s.pc + 2#64)).isSome then
        [readEvent s ⟨n, 0⟩ s.pc 2 .plain false, readEvent s ⟨n, 1⟩ (s.pc + 2#64) 2 .plain false]
      else [readEvent s ⟨n, 0⟩ s.pc 2 .plain false]

/-- The host's writes of one call as they end up: each byte it wrote, with the last value it wrote there. -/
def lastWrites : List (Word × Byte) → List (Word × Byte)
  | [] => []
  | c :: cs => if cs.any fun d => d.1 == c.1 then lastWrites cs else c :: lastWrites cs

/-- The host's writes to guest memory in its reply to a system call, at the place of the ECALL, instruction n (R120, R655). -/
def replyEvents (n : Nat) (reply : SyscallReply) (s : State) : List MemEvent :=
  match reply with
  | .resume _ writes _ => (lastWrites writes).map (hostWriteEvent s ⟨n, 2⟩)
  | .exit => []

/-- The events of the step a stopped hart takes: the host's writes after a Syscall (R120), none after any other event. -/
def waitEvents (n : Nat) (r : StopRecord) (s : State) : List MemEvent :=
  match r.event with
  | .syscall .. => replyEvents n (Config.syscall s.hostCalls s.syscallView) s
  | .decodeFailure _ => []
  | .misalignedFetch _ => []
  | .memoryFault _ _ => []
  | .misalignedAccess _ => []
  | .misalignedAtomic _ => []
  | .illegalRoundingMode _ => []
  | .breakpoint => []

/-- The memory events of the next step of a hart whose current instruction is its n-th, in program order (R120, R121). The
current instruction of a hart stopped at a Syscall is that ECALL. DESIGN CHOICE, notes/assumptions/15.md: the fetch reads and
the data access take their values from the one `s.mem`, so a byte that both read has one value in both, where R125 and R130
would let the data access return a write later in the coherence order than the fetch did. -/
def stepEvents (n : Nat) (s : State) : List MemEvent :=
  match s.status with
  | .running =>
    match fetchInstr s with
    | .instr i => fetchEvents n s ++ dataEvents n i s
    | .stop _ => fetchEvents n s
  | .stopped r => waitEvents n r s
  | .ended _ => []

end Sys2Proof.Machine
end

