-- ==== Sys2Proof/Machine/Ordering.lean ====
section
/-! DEFINITION. The memory consistency model over the events of several harts (R110, R120 to R126, R613, R655): program
order, coherence order, synchronizes-with, fences, happens-before and the axioms of a consistent execution; and which
executions the runs of several harts make. The steps of the one hart of `State` run on their own memory; this file says
what the harts of a run can see of one another. -/

namespace Sys2Proof.Machine

/-- An execution: the events of all agents, each named by its place in `events`; for each byte the write a read returns and
the coherence order of the writes to it (R122); the total order S of the FENCE events (R124); and which of the host's
writes it made before it launched a hart (R851). -/
structure Execution where
  events       : List MemEvent
  rf           : Nat → Word → Nat
  mo           : Word → Nat → Nat → Prop
  fences       : Nat → Nat → Prop
  beforeLaunch : Nat → Nat → Prop

/-- The byte at address `a` of the value `v` of an access from `base` on (R102, R104). -/
def valueByte (v base a : Word) : Byte := (v >>> (8 * (a - base).toNat)).setWidth 8

/-- The access is one indivisible event: naturally aligned, of at most 8 bytes (R107, R110). -/
def MemEvent.Indivisible (ev : MemEvent) : Prop := ev.bytes ≤ 8 ∧ ev.addr.toNat % ev.bytes = 0

namespace Execution

variable (X : Execution)

/-- `e` names the event `ev`. -/
def Is (e : Nat) (ev : MemEvent) : Prop := X.events[e]? = some ev

/-- `e` reads the byte `a`: a read or the read half of a read-modify-write. -/
def Reads (e : Nat) (a : Word) : Prop :=
  ∃ ev, X.Is e ev ∧ a ∈ accessBytes ev.addr ev.bytes ∧ (ev.kind = .read ∨ ev.kind = .rmw)

/-- `e` writes the byte `a`. -/
def Writes (e : Nat) (a : Word) : Prop :=
  ∃ ev, X.Is e ev ∧ a ∈ accessBytes ev.addr ev.bytes ∧ (ev.kind = .write ∨ ev.kind = .rmw)

/-- `e` is a FENCE. -/
def IsFence (e : Nat) : Prop := ∃ ev, X.Is e ev ∧ ev.kind = .fence

/-- `e` is an initial value or a write of the host (R122). -/
def ByHost (e : Nat) : Prop := ∃ ev, X.Is e ev ∧ ev.byHost = true

/-- `e` reads the value `b` at the byte `a`. -/
def ReadsByte (e : Nat) (a : Word) (b : Byte) : Prop :=
  ∃ ev v, X.Is e ev ∧ ev.readValue = some v ∧ valueByte v ev.addr a = b

/-- `e` writes the value `b` at the byte `a`. -/
def WritesByte (e : Nat) (a : Word) (b : Byte) : Prop :=
  ∃ ev v, X.Is e ev ∧ ev.writeValue = some v ∧ valueByte v ev.addr a = b

/-- Program order (R121): two events of one hart, by step and then by the order within the step. -/
def po (d e : Nat) : Prop :=
  ∃ dv ev h, X.Is d dv ∧ X.Is e ev ∧ dv.agent = .hart h ∧ ev.agent = .hart h ∧ dv.pos.before ev.pos

/-- `w` comes next before `u` in the coherence order of byte `a`. -/
def MoNext (a : Word) (w u : Nat) : Prop := X.mo a w u ∧ ∀ v, X.mo a w v → ¬ X.mo a v u

/-- The read `r` sees the write `w` at byte `a`: it returns it or one later in the coherence order. -/
def Sees (r w : Nat) (a : Word) : Prop := X.rf r a = w ∨ X.mo a w (X.rf r a)

/-- The release sequence of `w` at byte `a` (R123): `w`, and then the unbroken chain of writes that continue it. -/
inductive ReleaseSeq (a : Word) (w : Nat) : Nat → Prop where
  | head : ReleaseSeq a w w
  | next {u v : Nat} {ev : MemEvent} (hu : ReleaseSeq a w u) (hn : X.MoNext a u v) (hv : X.Is v ev)
      (hc : ev.continues = true) : ReleaseSeq a w v

/-- `r` reads, at some byte, from `w` or from a write in its release sequence. -/
def ReadsFromSeq (w r : Nat) : Prop :=
  ∃ a, X.Writes w a ∧ X.Reads r a ∧ ReleaseSeq X a w (X.rf r a)

/-- `x` releases at the write `w`: `w` is itself a release, or `x` is a FENCE before the write `w` (R123, R124). -/
def ReleasesAt (x w : Nat) : Prop :=
  (x = w ∧ ∃ ev, X.Is w ev ∧ ev.order.releases = true ∧ ev.kind ≠ .fence) ∨ (X.IsFence x ∧ X.po x w)

/-- `y` acquires at the read `r`: `r` is itself an acquire, or `y` is a FENCE after the read `r` (R123, R124). -/
def AcquiresAt (y r : Nat) : Prop :=
  (y = r ∧ ∃ ev, X.Is r ev ∧ ev.order.acquires = true ∧ ev.kind ≠ .fence) ∨ (X.IsFence y ∧ X.po r y)

/-- Synchronizes-with (R123, R124). -/
def sw (x y : Nat) : Prop := ∃ w r, X.ReleasesAt x w ∧ X.ReadsFromSeq w r ∧ X.AcquiresAt y r

/-- The host made `d` before it launched the hart of `e`: its own events, and of its writes during other harts' system calls
those that `beforeLaunch` names (R851). -/
def launched (d e : Nat) : Prop :=
  ∃ dv ev h, X.Is d dv ∧ X.Is e ev ∧ ev.agent = .hart h ∧
    (dv.agent = .host ∨ (dv.byHost = true ∧ X.beforeLaunch d h))

/-- Happens-before (R125): the transitive closure of program order and synchronizes-with, with the host's writes before a
launch before every event of the launched hart (R851). The host's writes during a system call lie in program order at the
ECALL, so they happen before the hart's next step (R655 item 5). -/
def hb : Nat → Nat → Prop := Relation.TransGen fun d e => X.po d e ∨ X.sw d e ∨ X.launched d e

/-- R122: the coherence order of a byte is a strict total order of its writes, the first of them an initial value or a write
of the host; and a read of the byte returns the value of one of them. What the host wrote before it launched a hart is no
write of that hart (R851). -/
structure WellFormed : Prop where
  mo_writes : ∀ a d e, X.mo a d e → X.Writes d a ∧ X.Writes e a
  mo_irrefl : ∀ a d, ¬ X.mo a d d
  mo_trans : ∀ a d e f, X.mo a d e → X.mo a e f → X.mo a d f
  mo_total : ∀ a d e, X.Writes d a → X.Writes e a → d = e ∨ X.mo a d e ∨ X.mo a e d
  mo_first : ∀ a e, X.Writes e a → X.ByHost e ∨ ∃ w, X.ByHost w ∧ X.mo a w e
  rf_write : ∀ r a, X.Reads r a → X.Writes (X.rf r a) a
  rf_value : ∀ r a, X.Reads r a → ∃ b, X.ReadsByte r a b ∧ X.WritesByte (X.rf r a) a b
  launch_other : ∀ d h dv, X.beforeLaunch d h → X.Is d dv → dv.agent ≠ .hart h

/-- R125: the four coherence rules, for every byte. -/
structure Coherent : Prop where
  no_read_from_later : ∀ r a, X.Reads r a → ¬ X.hb r (X.rf r a)
  write_write : ∀ d e a, X.Writes d a → X.Writes e a → X.hb d e → X.mo a d e
  read_read : ∀ d e a, X.Reads d a → X.Reads e a → X.hb d e → ¬ X.mo a (X.rf e a) (X.rf d a)
  write_read : ∀ w r a, X.Writes w a → X.Reads r a → X.hb w r → X.Sees r w a

/-- R126: a read-modify-write reads from the write next before its own in the coherence order of each of its bytes. -/
def RmwAtomic : Prop :=
  ∀ e ev a, X.Is e ev → ev.kind = .rmw → a ∈ accessBytes ev.addr ev.bytes → X.MoNext a (X.rf e a) e

/-- R124: the FENCE events lie in one total order, consistent with happens-before; a write before a FENCE is seen, or a
later one, by a read after a later FENCE; and writes that fences separate are in that coherence order. -/
structure FencesOrdered : Prop where
  irrefl : ∀ d, ¬ X.fences d d
  trans : ∀ d e f, X.fences d e → X.fences e f → X.fences d f
  total : ∀ d e, X.IsFence d → X.IsFence e → d = e ∨ X.fences d e ∨ X.fences e d
  hb_consistent : ∀ d e, X.IsFence d → X.IsFence e → X.hb d e → ¬ X.fences e d
  write_read : ∀ w f g r a, X.Writes w a → X.Reads r a → X.po w f → X.IsFence f → X.fences f g → X.IsFence g →
    X.po g r → X.Sees r w a
  write_write : ∀ w f g u a, X.Writes w a → X.Writes u a → X.po w f → X.IsFence f → X.fences f g → X.IsFence g →
    X.po g u → X.mo a w u

/-- R110: no access falls between the bytes of an indivisible one. Two writes are in one order on all the bytes they share,
and a read sees a write at all the bytes they share or at none. -/
structure SingleCopyAtomic : Prop where
  writes : ∀ d e dv ev a b, X.Is d dv → X.Is e ev → dv.Indivisible → ev.Indivisible →
    X.Writes d b → X.Writes e b → X.mo a d e → X.mo b d e
  reads : ∀ r w rv wv a b, X.Is r rv → X.Is w wv → rv.Indivisible → wv.Indivisible →
    X.Reads r a → X.Writes w a → X.Reads r b → X.Writes w b → X.Sees r w a → X.Sees r w b

/-- `l` is the LR whose reservation the SC `e` finds: the last LR before it in program order, of the same bytes
(R611, R612). -/
def Reserved (l e : Nat) : Prop :=
  ∃ lv ev, X.Is l lv ∧ X.Is e ev ∧ lv.reserves = true ∧ lv.addr = ev.addr ∧ lv.bytes = ev.bytes ∧ X.po l e ∧
    ∀ k kv, X.Is k kv → kv.reserves = true → X.po l k → ¬ X.po k e

/-- R613, the SC that succeeds in reserve mode: it has its LR, and no other hart's write to its bytes lies in the coherence
order between the write the LR read from and its own. -/
def ScAtomic : Prop :=
  ∀ e ev h, X.Is e ev → ev.kind = .write → ev.continues = true → ev.agent = .hart h → ∃ l, X.Reserved l e ∧
    ∀ a ∈ accessBytes ev.addr ev.bytes, ∀ w wv g, X.Is w wv → wv.agent = .hart g →
      X.mo a (X.rf l a) w → X.mo a w e → g = h

/-- An execution the memory model admits (R110, R122 to R126, R613). -/
structure Consistent : Prop where
  wellFormed : X.WellFormed
  coherent : X.Coherent
  rmwAtomic : X.RmwAtomic
  fencesOrdered : X.FencesOrdered
  singleCopy : X.SingleCopyAtomic
  scAtomic : X.ScAtomic

/-- Event `u` follows the place of the data access of instruction `n` of hart `h`, the last of its step (R120): it is an
event of that hart later in program order, or one that such an event happens before (R125), or one after a FENCE that comes
later in the order of the fences than such an event that is a FENCE (R124). The fetch reads of that step come before the
place, and so may what follows them alone. -/
def Follows (h n u : Nat) : Prop :=
  ∃ f fv, X.Is f fv ∧ fv.agent = .hart h ∧ Position.before ⟨n, 2⟩ fv.pos ∧
    (f = u ∨ X.hb f u ∨ (X.IsFence f ∧ ∃ e, X.fences f e ∧ X.IsFence e ∧ X.po e u))

/-- Write `u` comes at byte `a` after the place of the write of an SC to `bytes`, instruction `n` of hart `h`, wherever in
the coherence order that place is taken, so that it cannot lie between the SC's LR's source and that place (R613). Such is a
write that follows that place (R125 (b), R124); one coherence-later than what a read that follows it returns (R125 (d),
R124); one coherence-later than such a write (R122); and an indivisible one that so comes at another of the bytes (R110). A
failing SC writes nothing, so that the rule gives its place by these bounds alone is DEDUCED (notes/assumptions/9.md). -/
inductive ComesAfterSc (h n : Nat) (bytes : List Word) : Word → Nat → Prop where
  | follows {a : Word} {u : Nat} (hu : X.Follows h n u) : ComesAfterSc h n bytes a u
  | unseen {a : Word} {r u : Nat} (hr : X.Follows h n r) (ha : X.Reads r a) (hm : X.mo a (X.rf r a) u) :
      ComesAfterSc h n bytes a u
  | later {a : Word} {u v : Nat} (hu : ComesAfterSc h n bytes a u) (hm : X.mo a u v) : ComesAfterSc h n bytes a v
  | whole {a b : Word} {u : Nat} {uv : MemEvent} (hu : ComesAfterSc h n bytes a u) (ha : a ∈ bytes) (hb : b ∈ bytes)
      (hv : X.Is u uv) (hi : uv.Indivisible) (hwa : X.Writes u a) (hwb : X.Writes u b) : ComesAfterSc h n bytes b u

end Execution

/-! ## The runs of several harts -/

/-- `v` is what a hart finds at its next step when its last step left `t`: the same hart state, with guest memory, its
mapping and the other harts' writes to reserved bytes as the rest of the machine has made them (R7, R101, R613). -/
def Resumes (t v : State) : Prop :=
  v = { t with
    mem := v.mem
    params := { t.params with mapping := v.params.mapping }
    otherHartWrote := v.otherHartWrote }

/-- A run of hart `h`: the states it finds at its steps, each step going on from the one before. -/
def IsRun (h : Nat) : List State → Prop
  | [] => True
  | [s] => s.hart = h
  | s :: v :: rest => s.hart = h ∧ (∃ t, step s = .next t ∧ Resumes t v) ∧ IsRun h (v :: rest)

/-- It begins as a launched hart does (R850): running, with no reservation. -/
def BeginsLaunched (run : List State) : Prop := ∀ s ∈ run.head?, s.status = .running ∧ s.resv = none

/-- The hart is stopped. -/
def State.isStopped (s : State) : Bool :=
  match s.status with
  | .running => false
  | .stopped _ => true
  | .ended _ => false

/-- The steps of a run with the number of the instruction each belongs to: a stopped hart is still at the instruction that
stopped it (R803). -/
def numbered (n : Nat) : List State → List (Nat × State)
  | [] => []
  | s :: rest => (n, s) :: numbered (if rest.head?.any State.isStopped then n else n + 1) rest

/-- The events of a run (R120, R121). -/
def runEvents (run : List State) : List MemEvent := (numbered 0 run).flatMap fun p => stepEvents p.1 p.2

/-- The execution is one that these runs, of harts 0, 1, 2 and so on, make together. Its events are the host's own and
those of the runs, named in any order. What the host sees of a hart stopped at a Syscall holds every earlier write of that hart, or a later one
(R655 item 2). An SC that fails though its reservation is of its bytes has another hart's write to one of them that lies
between, in the coherence order, the write its LR read from and the place of its own write (R613, R614): later than the one,
and not among those that come after the other wherever it is put. -/
structure Execution.OfRuns (X : Execution) (runs : List (List State)) : Prop where
  run : ∀ h r, runs[h]? = some r → IsRun h r ∧ BeginsLaunched r
  events : ∃ own, (∀ ev ∈ own, ev.agent = .host ∧ ev.kind = .write ∧ ev.byHost = true) ∧
    X.events.Perm (own ++ runs.flatMap runEvents)
  hostSees : ∀ h r n s, runs[h]? = some r → (n, s) ∈ numbered 0 r → s.isStopped = true →
    ∀ u ev a, X.Is u ev → ev.agent = .hart h → ev.pos.before ⟨n, 2⟩ → X.Writes u a →
      ∃ w, (w = u ∨ X.mo a u w) ∧ X.WritesByte w a (byteAt s.mem a.toNat)
  scFails : ∀ h r n s i a k v aq rl, runs[h]? = some r → (n, s) ∈ numbered 0 r → s.status = .running →
    fetchInstr s = .instr i → dataRequest i s = some (.storeConditional a k v aq rl) →
    s.params.lrscMode = .reserve → s.resv = some ⟨a, k⟩ → s.otherHartWrote = true →
    ∃ l lv, X.Is l lv ∧ lv.agent = .hart h ∧ lv.reserves = true ∧ lv.pos.before ⟨n, 2⟩ ∧
      (∀ m mv, X.Is m mv → mv.agent = .hart h → mv.reserves = true → mv.pos.before ⟨n, 2⟩ →
        ¬ lv.pos.before mv.pos) ∧
      ∃ b ∈ accessBytes a k, ∃ w wv g, X.Is w wv ∧ wv.agent = .hart g ∧ g ≠ h ∧ X.mo b (X.rf l b) w ∧
        ¬ X.ComesAfterSc h n (accessBytes a k) b w

/-- An execution of these runs that the memory model admits. -/
def Execution.Admitted (X : Execution) (runs : List (List State)) : Prop := X.OfRuns runs ∧ X.Consistent

end Sys2Proof.Machine
end

