-- ==== Sys2Proof/Safety.lean ====
section
/-! DEFINITION. What a run is and how it ends (R853): ended by an exit call with an observation, faulted, or neither. -/

namespace Sys2Proof.Machine

/-- Whether a stop event is one the host may resume: Syscall alone (R800, R805). -/
def StopEvent.isSyscall : StopEvent → Bool
  | .syscall .. => true
  | .decodeFailure _ => false
  | .misalignedFetch _ => false
  | .memoryFault _ _ => false
  | .misalignedAccess _ => false
  | .misalignedAtomic _ => false
  | .illegalRoundingMode _ => false
  | .breakpoint => false

/-- The code of a stop event (R800). -/
def StopEvent.code : StopEvent → Nat
  | .decodeFailure _ => 1
  | .misalignedFetch _ => 2
  | .memoryFault _ _ => 3
  | .misalignedAccess _ => 4
  | .misalignedAtomic _ => 5
  | .illegalRoundingMode _ => 6
  | .breakpoint => 7
  | .syscall .. => 8

/-- The hart stopped at an event other than Syscall: the run is faulted, with no final observation (R853, R805). -/
def State.faulted (s : State) : Bool :=
  match s.status with
  | .running => false
  | .stopped r => !r.event.isSyscall
  | .ended _ => false

/-- The observation of a run that an exit call has ended (R853): the final guest memory and the exit value. -/
def State.observation (s : State) : Option (Memory × Word) :=
  match s.status with
  | .running => none
  | .stopped _ => none
  | .ended v => some (s.mem, v)

/-- `t` is reached from `s` by steps that each answer a next state. -/
inductive Reaches : State → State → Prop where
  | refl (s : State) : Reaches s s
  | step {s t u : State} (h : Reaches s t) (hs : step t = .next u) : Reaches s u

/-- A safe run from `s`: no state it reaches is faulted, and none has an instruction without a meaning. -/
def SafeFrom (s : State) : Prop := ∀ t, Reaches s t → t.faulted = false ∧ ∀ r, step t ≠ .refused r

/-- A run from `s` that ends: some state it reaches has an observation. -/
def EndsFrom (s : State) : Prop := ∃ t, Reaches s t ∧ t.observation.isSome

end Sys2Proof.Machine
end

