-- ==== Sys2Proof/Certificates/Slice0/Obligations.lean ====
section
/-! DEFINITION. The statements for the provers. First what they say an instruction leaves unchanged, in words of their
own, and the spec's arithmetic over Int and Nat; then the statements, in the order of the spec's files. -/

namespace Sys2Proof.Spec

open Sys2Proof.Machine

/-! ## Frames -/

/-- Every integer register reads as before. -/
def SameX (s t : State) : Prop := ∀ j, t.rx j = s.rx j

/-- Every f register reads as before. -/
def SameF (s t : State) : Prop := ∀ j, t.rf j = s.rf j

/-- Every byte of memory reads as before. -/
def SameBytes (s t : State) : Prop := ∀ a : Word, byteAt t.mem a.toNat = byteAt s.mem a.toNat

/-- The reservation is as before. -/
def SameResv (s t : State) : Prop := t.resv = s.resv ∧ t.otherHartWrote = s.otherHartWrote

/-- The host's parameters, the hart's name and the count of host calls are as before. -/
def SameParams (s t : State) : Prop := t.params = s.params ∧ t.hart = s.hart ∧ t.hostCalls = s.hostCalls

/-- The hart goes on as before, and the host's side of the state is unchanged. -/
def SameHost (s t : State) : Prop := SameParams s t ∧ t.status = s.status

/-- Register rd reads v and every other integer register as before; where rd is x0, all read as before (R51). -/
def XIs (s t : State) (rd : XReg) (v : Word) : Prop := ∀ j, t.rx j = if j = rd ∧ rd ≠ 0#5 then v else s.rx j

/-- Register frd reads v and every other f register as before. -/
def FIs (s t : State) (frd : FReg) (v : Word) : Prop := ∀ j, t.rf j = if j = frd then v else s.rf j

/-- The n bytes from `a` on read as the low bytes of v, the least significant at `a` (R102), every other byte as before. -/
def BytesAre (s t : State) (a : Word) (n : Nat) (v : Word) : Prop :=
  (∀ k < n, (byteAt t.mem (a + BitVec.ofNat 64 k).toNat).toNat = v.toNat / 256 ^ k % 256) ∧
  ∀ b : Word, b ∉ accessBytes a n → byteAt t.mem b.toNat = byteAt s.mem b.toNat

/-- The instruction answers a next state of which P holds. -/
def Answers (i : Instr) (s : State) (P : State → Prop) : Prop := ∃ t, exec i s = .next t ∧ P t

/-- It completes: rd gets v, the pc is pc', and everything else is as before. -/
def SetsX (i : Instr) (s : State) (pc' : Word) (rd : XReg) (v : Word) : Prop :=
  Answers i s fun t => t.pc = pc' ∧ XIs s t rd v ∧ SameF s t ∧ t.fcsr = s.fcsr ∧ SameBytes s t ∧ SameResv s t ∧
    SameHost s t

/-- It completes: frd gets v, the pc is pc', and everything else is as before. -/
def SetsF (i : Instr) (s : State) (pc' : Word) (frd : FReg) (v : Word) : Prop :=
  Answers i s fun t => t.pc = pc' ∧ SameX s t ∧ FIs s t frd v ∧ t.fcsr = s.fcsr ∧ SameBytes s t ∧ SameResv s t ∧
    SameHost s t

/-- The fcsr after flags accrue: frm as before, fflags with the flags of fl set as well (R430). -/
def Accrued (s t : State) (fl : FlagSet) : Prop :=
  frmOf t.fcsr = frmOf s.fcsr ∧ fflagsOf t.fcsr = fflagsOf s.fcsr ||| fl

/-- It completes at pc + 4: rd gets the value and fflags the flags of r, and everything else is as before. -/
def SetsXFlags (i : Instr) (s : State) (rd : XReg) (r : Word × FlagSet) : Prop :=
  Answers i s fun t => t.pc = s.pc + 4#64 ∧ XIs s t rd r.1 ∧ SameF s t ∧ Accrued s t r.2 ∧ SameBytes s t ∧
    SameResv s t ∧ SameHost s t

/-- It completes at pc + 4: frd gets the value and fflags the flags of r, and everything else is as before. -/
def SetsFFlags (i : Instr) (s : State) (frd : FReg) (r : Word × FlagSet) : Prop :=
  Answers i s fun t => t.pc = s.pc + 4#64 ∧ SameX s t ∧ FIs s t frd r.1 ∧ Accrued s t r.2 ∧ SameBytes s t ∧
    SameResv s t ∧ SameHost s t

/-- It completes at pc + 4: rd gets v, fcsr becomes c, and everything else is as before. -/
def SetsCsr (i : Instr) (s : State) (rd : XReg) (v : Word) (c : BitVec 8) : Prop :=
  Answers i s fun t => t.pc = s.pc + 4#64 ∧ XIs s t rd v ∧ SameF s t ∧ t.fcsr = c ∧ SameBytes s t ∧ SameResv s t ∧
    SameHost s t

/-- It completes: the n bytes from `a` on become v, the pc is pc', and everything else is as before. -/
def Stores (i : Instr) (s : State) (pc' : Word) (a : Word) (n : Nat) (v : Word) : Prop :=
  Answers i s fun t => t.pc = pc' ∧ SameX s t ∧ SameF s t ∧ t.fcsr = s.fcsr ∧ BytesAre s t a n v ∧ SameResv s t ∧
    SameHost s t

/-- It completes at pc + 4: rd gets v, the n bytes from `a` on become w, and everything else is as before. -/
def SetsXStores (i : Instr) (s : State) (rd : XReg) (v : Word) (a : Word) (n : Nat) (w : Word) : Prop :=
  Answers i s fun t => t.pc = s.pc + 4#64 ∧ XIs s t rd v ∧ SameF s t ∧ t.fcsr = s.fcsr ∧ BytesAre s t a n w ∧
    SameResv s t ∧ SameHost s t

/-- It only moves the pc. -/
def OnlyPc (i : Instr) (s : State) (pc' : Word) : Prop :=
  Answers i s fun t => t.pc = pc' ∧ SameX s t ∧ SameF s t ∧ t.fcsr = s.fcsr ∧ SameBytes s t ∧ SameResv s t ∧
    SameHost s t

/-- `t` is `s` stopped with event e (R803): the event, the pc and the hart are recorded, and everything else, the pc
included, is as before. -/
def StoppedAs (s t : State) (e : StopEvent) : Prop :=
  t.status = .stopped { event := e, pc := s.pc, hart := s.hart } ∧ t.pc = s.pc ∧ SameX s t ∧ SameF s t ∧
    t.fcsr = s.fcsr ∧ SameBytes s t ∧ SameResv s t ∧ SameParams s t

/-- The instruction stops with event e. -/
def Stops (i : Instr) (s : State) (e : StopEvent) : Prop := Answers i s fun t => StoppedAs s t e

/-- Every byte of an access of n bytes at `a` is mapped for k (R106). -/
def MappedAll (s : State) (a : Word) (n : Nat) (k : AccessKind) : Prop :=
  ∀ b ∈ accessBytes a n, mapped s.params b k = true

/-- A plain access of n bytes at `a` passes the alignment check (R107). -/
def PlainAligned (s : State) (a : Word) (n : Nat) : Prop :=
  a.toNat % n = 0 ∨ s.params.misalignedPlain = .split

/-- The n bytes at `a`, little-endian, as a number (R102). -/
def leNat (m : Memory) (a : Word) : Nat → Nat
  | 0 => 0
  | n + 1 => (byteAt m a.toNat).toNat + 256 * leNat m (a + 1#64) n

/-! ## Arithmetic -/

/-- A condition as 1 or 0. -/
def bit (p : Prop) [Decidable p] : Word := if p then 1#64 else 0#64

/-- An integer wrapped to 32 bits and sign-extended: `sext_32(trunc_32(n))` (R302). -/
def sextW (n : Int) : Word := BitVec.ofInt 64 (BitVec.ofInt 32 n).toInt

/-- The 32-bit view of a register as a signed number. -/
def sW (v : Word) : Int := (v.setWidth 32).toInt

/-- The 32-bit view of a register as an unsigned number. -/
def uW (v : Word) : Nat := v.toNat % 2 ^ 32

/-- `kind(old, v)` of R601 on n bits. -/
def amoNew {n : Nat} (kind : AmoKind) (old v : BitVec n) : BitVec n :=
  match kind with
  | .swap => v
  | .add => BitVec.ofNat n (old.toNat + v.toNat)
  | .xor => old ^^^ v
  | .and => old &&& v
  | .or => old ||| v
  | .min => if old.toInt ≤ v.toInt then old else v
  | .max => if v.toInt ≤ old.toInt then old else v
  | .minu => if old.toNat ≤ v.toNat then old else v
  | .maxu => if v.toNat ≤ old.toNat then old else v

/-- The read value of a CSR by R65, in numbers: fflags is fcsr mod 32, frm is fcsr div 32. -/
def csrValue (fcsr : BitVec 8) : Csr → Word
  | .fflags => BitVec.ofNat 64 (fcsr.toNat % 32)
  | .frm => BitVec.ofNat 64 (fcsr.toNat / 32)
  | .fcsr => BitVec.ofNat 64 fcsr.toNat

/-- The fcsr after v is written to a CSR by R65, in numbers. -/
def csrAfter (fcsr : BitVec 8) (v : Word) : Csr → BitVec 8
  | .fflags => BitVec.ofNat 8 (fcsr.toNat / 32 * 32 + v.toNat % 32)
  | .frm => BitVec.ofNat 8 (v.toNat % 8 * 32 + fcsr.toNat % 32)
  | .fcsr => BitVec.ofNat 8 (v.toNat % 256)

/-- The rational number a finite datum denotes (R401). -/
def ratOf (neg : Bool) (m : Nat) (e : Int) : ℚ := (if neg then -1 else 1) * m * (2 : ℚ) ^ e

/-- It is one of the two formats (R400). -/
def IsFormat {w : Nat} (F : Fmt w) : Prop :=
  (w = 32 ∧ F.fracBits = 23 ∧ F.expBits = 8) ∨ (w = 64 ∧ F.fracBits = 52 ∧ F.expBits = 11)

/-- A pattern denotes the finite number v. -/
def Denotes {w : Nat} (F : Fmt w) (b : BitVec w) (v : ℚ) : Prop :=
  ∃ neg m e, F.datum b = .fin neg m e ∧ v = ratOf neg m e

/-- `r` is the non-zero number x rounded once under m (R415), x given as a signed fraction. -/
def Rounds {w : Nat} (F : Fmt w) (m : RoundingMode) (r : BitVec w × FlagSet) (x : ℚ) : Prop :=
  ∃ (neg : Bool) (num den : Nat), 0 < num ∧ 0 < den ∧ x = (if neg then -1 else 1) * num / den ∧
    r = F.round m neg num den

/-- A mode and a sign round magnitudes up (R406). -/
def AwayFromZero (m : RoundingMode) (neg : Bool) : Prop := (m = .rup ∧ neg = false) ∨ (m = .rdn ∧ neg = true)

/-- A mode rounds to the nearest (R406). -/
def Nearest (m : RoundingMode) : Prop := m = .rne ∨ m = .rmm

/-- An S result as an f register holds it (R413). -/
def boxed (r : BitVec 32 × FlagSet) : Word × FlagSet := (BitVec.ofNat 64 (0xFFFFFFFF * 2 ^ 32 + r.1.toNat), r.2)

/-- `a < b` on values that are no NaN (R428): -∞ below every number, +∞ above, numbers by value. -/
def DatumLt : Datum → Datum → Prop
  | .inf true, .inf b => b = false
  | .inf true, .fin _ _ _ => True
  | .inf false, _ => False
  | .fin _ _ _, .inf b => b = false
  | .fin n1 m1 e1, .fin n2 m2 e2 => ratOf n1 m1 e1 < ratOf n2 m2 e2
  | .nan _, _ => False
  | .inf true, .nan _ => False
  | .fin _ _ _, .nan _ => False

/-- The rounding modes of the rm field other than DYN, and DYN with frm, by number (R62, R404): `none` for frm 5 to 7. -/
def modeByNumber (n : Nat) : Option RoundingMode :=
  if n = 0 then some .rne else if n = 1 then some .rtz else if n = 2 then some .rdn else if n = 3 then some .rup
  else if n = 4 then some .rmm else none

/-- A NaN of a format by its fields (R401): the exponent field is all ones and the fraction is not zero. -/
def IsNaN {w : Nat} (F : Fmt w) (b : BitVec w) : Prop :=
  b.toNat / 2 ^ F.fracBits % 2 ^ F.expBits = 2 ^ F.expBits - 1 ∧ b.toNat % 2 ^ F.fracBits ≠ 0

/-- A signaling NaN of a format (R408): the top fraction bit is 0. -/
def IsSNaN {w : Nat} (F : Fmt w) (b : BitVec w) : Prop := IsNaN F b ∧ b.toNat / 2 ^ (F.fracBits - 1) % 2 = 0

/-- The canonical NaN of the format of w bits, by its bits (R409). -/
def canonical (w : Nat) : BitVec w := BitVec.ofNat w (if w = 32 then 0x7FC00000 else 0x7FF8000000000000)

/-- A result is the canonical NaN, with NV exactly if P holds and else with no flag (R421 to R423). -/
def GivesNaN {w : Nat} (r : BitVec w × FlagSet) (P : Prop) : Prop :=
  r.1 = canonical w ∧ (P → r.2 = flagNV) ∧ (¬ P → r.2 = noFlags)

/-- The four fused operations (R424, R425), each with whether it negates the product and whether it negates the addend. -/
def fusedForms {w : Nat} (F : Fmt w) :
    List ((RoundingMode → BitVec w → BitVec w → BitVec w → BitVec w × FlagSet) × Bool × Bool) :=
  [(F.madd, false, false), (F.msub, false, true), (F.nmsub, true, false), (F.nmadd, true, true)]

/-- The class of a pattern by its fields (R429): the exponent field e, which is all ones at `ones`, the fraction field f,
whose top bit is worth `quiet`, and the sign. -/
def classBit (e ones f quiet : Nat) (neg : Prop) [Decidable neg] : Word :=
  BitVec.ofNat 64
    (if e = ones then
      if f = 0 then (if neg then 1 else 128) else if f < quiet then 256 else 512
    else if e = 0 then
      if f = 0 then (if neg then 8 else 16) else (if neg then 4 else 32)
    else if neg then 2 else 64)

/-! ## Requests -/

/-- The address, the width and the kinds of access of a request (R106). -/
def requestShape : LsuReq → Word × Nat × List AccessKind
  | .load a n => (a, n, [.read])
  | .store a n _ => (a, n, [.write])
  | .loadReserved a n _ _ => (a, n, [.read])
  | .storeConditional a n _ _ _ => (a, n, [.write])
  | .amo _ a n _ _ _ => (a, n, [.read, .write])

/-- A request is an atomic one (R108). -/
def AtomicRequest : LsuReq → Prop
  | .load _ _ => False
  | .store _ _ _ => False
  | .loadReserved _ _ _ _ => True
  | .storeConditional _ _ _ _ _ => True
  | .amo _ _ _ _ _ _ => True

/-- A request passes the alignment check (R105, R107, R108). -/
def PassesAlignment (s : State) (q : LsuReq) : Prop :=
  (requestShape q).1.toNat % (requestShape q).2.1 = 0 ∨ (¬ AtomicRequest q ∧ s.params.misalignedPlain = .split)

/-! ## The invariant -/

/-- What every step keeps: memory in canonical form; the cell of x0 holds 0 (R51); the pc is even (R59); no reservation
in plain mode, and a reservation is of an aligned word or doubleword (R66, R108, R612); a stopped hart's record holds its
pc and its name (R58, R800). -/
structure Inv (s : State) : Prop where
  memory : Memory.wf s.mem = true
  x0 : s.x[0] = 0#64
  pcEven : s.pc.toNat % 2 = 0
  plainNoResv : s.params.lrscMode = .plain → s.resv = none
  resvAligned : ∀ r, s.resv = some r → (r.bytes = 4 ∨ r.bytes = 8) ∧ r.addr.toNat % r.bytes = 0
  record : ∀ r, s.status = .stopped r → r.pc = s.pc ∧ r.hart = s.hart

end Sys2Proof.Spec

open Sys2Proof Sys2Proof.Machine Sys2Proof.Spec

/-! ## Encoding (30_encoding.md) -/

/-- Decoding the encoding of any well-formed instruction, whatever bytes follow, gives it back with those bytes
(R153 to R182, R190 to R201). -/
def Obligations.DecodeOfEncode : Prop :=
  ∀ (i : Instr) (rest : List Byte), i.wf = true → decode ((encode i).bytes ++ rest) = .instr i rest

/-- Bytes that decode are the encoding of a well-formed instruction: no two words share one, and no bit is ignored
(R153, R168, R211). -/
def Obligations.EncodeOfDecode : Prop :=
  ∀ (bytes rest : List Byte) (i : Instr),
    decode bytes = .instr i rest → i.wf = true ∧ bytes = (encode i).bytes ++ rest

/-- A few words of the spec's own examples, with the instructions they spell. -/
def Obligations.ExampleWordsDecode : Prop :=
  decodeTableWord 32 0x003100B3 = some (.add 1#5 2#5 3#5) ∧
  decodeTableWord 32 0xFE310CE3 = some (.beq 2#5 3#5 0x1FF8#13) ∧
  decodeTableWord 32 0xFFDFF06F = some (.jal 0#5 0x1FFFFC#21) ∧
  decodeTableWord 32 0xFE312E23 = some (.sw 3#5 2#5 0xFFC#12) ∧
  decodeTableWord 32 0x1A3120AF = some (.scW 1#5 2#5 3#5 false true) ∧
  decodeTableWord 32 0x003110F3 = some (.csrrw 1#5 .fcsr 2#5) ∧
  decodeTableWord 32 0x203100CB = some (.fnmsubS 1#5 2#5 3#5 4#5 .rne) ∧
  decodeTableWord 32 0xC03110D3 = some (.fcvtLUS 1#5 2#5 .rtz) ∧
  decodeTableWord 16 0x7139 = some (.cAddi16sp 0x3C0#10) ∧
  decodeTableWord 16 0xFC75 = some (.cBnez 8#5 0x1FC#9) ∧
  decodeTableWord 16 0xA42A = some (.cFsdsp 10#5 8#9)

/-- The length decision (R150, R151, R152): low bits other than 11 are a 16-bit instruction, 11 with bits 4:2 other than
111 a 32-bit one, and 11111 begins a longer encoding, rejected whatever follows. -/
def Obligations.LengthByLowBits : Prop :=
  ∀ (b0 b1 : Byte) (rest : List Byte),
    (∀ i r, decode (b0 :: b1 :: rest) = .instr i r → (i.len = 2 ↔ b0.toNat % 4 ≠ 3) ∧
      (i.len = 4 ↔ b0.toNat % 4 = 3) ∧ b0.toNat % 32 ≠ 31) ∧
    (b0.toNat % 32 = 31 → decode (b0 :: b1 :: rest) = .reject (.longEncoding (0#16 ++ b1 ++ b0)))

/-- The reserved compressed encodings (R215) and the reserved and custom major opcodes (R190, R212) spell nothing, nor
does a floating-point computation, fused or OP-FP, whose bits 14:12 are 5 or 6, which no rm and no funct3 is (R403, R198), nor
a CSR number other than 1 to 3 (R659). -/
def Obligations.ReservedWordsRejected : Prop :=
  (∀ h : BitVec 16, h.extractLsb' 0 2 = 0b00#2 →
    (h.extractLsb' 13 3 = 0b100#3 ∨ (h.extractLsb' 13 3 = 0b000#3 ∧ h.extractLsb' 5 8 = 0#8)) → decode16 h = none) ∧
  (∀ h : BitVec 16, h.extractLsb' 0 2 = 0b01#2 →
    ((h.extractLsb' 13 3 = 0b001#3 ∧ h.extractLsb' 7 5 = 0#5) ∨
      (h.extractLsb' 13 3 = 0b011#3 ∧ h.extractLsb' 12 1 = 0#1 ∧ h.extractLsb' 2 5 = 0#5) ∨
      (h.extractLsb' 10 6 = 0b100111#6 ∧ h.extractLsb' 6 1 = 1#1)) → decode16 h = none) ∧
  (∀ h : BitVec 16, h.extractLsb' 0 2 = 0b10#2 → h.extractLsb' 7 5 = 0#5 →
    (h.extractLsb' 13 3 = 0b010#3 ∨ h.extractLsb' 13 3 = 0b011#3 ∨
      (h.extractLsb' 12 4 = 0b1000#4 ∧ h.extractLsb' 2 5 = 0#5)) → decode16 h = none) ∧
  (∀ w : BitVec 32, w.extractLsb' 0 7 ∈ [0x0B#7, 0x2B#7, 0x5B#7, 0x7B#7, 0x57#7, 0x77#7, 0x6B#7] → decode32 w = none) ∧
  (∀ w : BitVec 32, w.extractLsb' 0 7 ∈ [0x43#7, 0x47#7, 0x4B#7, 0x4F#7, 0x53#7] →
    (w.extractLsb' 12 3 = 5#3 ∨ w.extractLsb' 12 3 = 6#3) → decode32 w = none) ∧
  (∀ w : BitVec 32, w.extractLsb' 0 7 = 0x73#7 → w.extractLsb' 12 3 ≠ 0#3 →
    ¬ (1 ≤ (w.extractLsb' 20 12).toNat ∧ (w.extractLsb' 20 12).toNat ≤ 3) → decode32 w = none)

/-! ## Fetch and the step (30 R151 to R153, 60 R802) -/

/-- A step of a running hart at an even pc runs the instruction its bytes there decode to, when the bytes of the
instruction are mapped for fetch and IMPLEMENTED holds its mnemonic: the step is exec of it at that state, and the record
the decoder puts out is that instruction's (R8). -/
def Obligations.StepRunsDecoded : Prop :=
  ∀ (s : State) (i : Instr) (rest : List Byte), s.status = .running → s.pc.toNat % 2 = 0 →
    decode ((accessBytes s.pc 4).map fun a => byteAt s.mem a.toNat) = .instr i rest →
    MappedAll s s.pc i.len .fetch → i.mnemonic ∉ s.params.withheld →
    step s = exec i s ∧ decoderOutput s = .inr i.decodedOp

/-- When a step stops before it executes (R802 items 1 to 5), in that order and with the word of R815: an odd pc; a
first parcel that is not mapped for fetch; a longer encoding; a second parcel that is not mapped; a word that is no
instruction, or one whose mnemonic IMPLEMENTED leaves out. Two things here are the model's reading and no rule's words: that
a fetch whose second byte alone is not mapped reports its parcel's address, pc or pc + 2 (notes/assumptions/8.md, DEDUCED),
and that IMPLEMENTED is held as the list of the mnemonics it leaves out (notes/assumptions/13.md, DESIGN CHOICE). -/
def Obligations.FetchStops : Prop :=
  ∀ s : State, s.status = .running →
    let b := fun k : Nat => byteAt s.mem (s.pc + BitVec.ofNat 64 k).toNat
    let p0 := b 1 ++ b 0
    let w := b 3 ++ b 2 ++ b 1 ++ b 0
    let stops := fun e => ∃ t, step s = .next t ∧ StoppedAs s t e
    (s.pc.toNat % 2 = 1 → stops (.misalignedFetch s.pc)) ∧
    (s.pc.toNat % 2 = 0 → ¬ MappedAll s s.pc 2 .fetch → stops (.memoryFault s.pc .fetch)) ∧
    (s.pc.toNat % 2 = 0 → MappedAll s s.pc 2 .fetch →
      (p0.toNat % 32 = 31 → stops (.decodeFailure (p0.setWidth 32))) ∧
      (p0.toNat % 4 ≠ 3 → ∀ i ∈ decode16 p0, i.mnemonic ∈ s.params.withheld →
        stops (.decodeFailure (p0.setWidth 32))) ∧
      (p0.toNat % 4 ≠ 3 → decode16 p0 = none → stops (.decodeFailure (p0.setWidth 32))) ∧
      (p0.toNat % 4 = 3 → p0.toNat % 32 ≠ 31 → ¬ MappedAll s (s.pc + 2#64) 2 .fetch →
        stops (.memoryFault (s.pc + 2#64) .fetch)) ∧
      (p0.toNat % 4 = 3 → p0.toNat % 32 ≠ 31 → MappedAll s (s.pc + 2#64) 2 .fetch →
        (decode32 w = none → stops (.decodeFailure w)) ∧
        (∀ i ∈ decode32 w, i.mnemonic ∈ s.params.withheld → stops (.decodeFailure w))))

/-- Every instruction answers a next state in every state: none refuses and none faults (R13, R350, R430: every numeric
case has a result; R803: what stops is a state). -/
def Obligations.ExecAlwaysNext : Prop := ∀ (i : Instr) (s : State), ∃ t, exec i s = .next t

/-! ## Stop events (60_exceptions.md, 48_system.md) -/

/-- Precision (R803): whenever a step of a running hart ends stopped, its registers, pc, fcsr, reservation and memory are
those before it, the record holds its pc and its hart, and it made no memory event but its fetch reads. -/
def Obligations.StopsArePrecise : Prop :=
  ∀ (s t : State) (r : StopRecord) (n : Nat), s.status = .running → step s = .next t → t.status = .stopped r →
    StoppedAs s t r.event ∧ stepEvents n s = fetchEvents n s

/-- A hart stopped at any of the events 1 to 7 takes no further step: the step faults, with the record (R805). An ended
hart takes none either (R852). -/
def Obligations.StoppedForGood : Prop :=
  ∀ (s : State), (∀ r, s.status = .stopped r → r.event.code ≤ 7 → step s = .fault (.stoppedForGood r)) ∧
    (∀ v, s.status = .ended v → step s = .fault (.hartEnded v))

/-- ECALL stops with Syscall, its number x17 and its arguments x10 to x15 (R652); EBREAK and C.EBREAK stop with Breakpoint
(R653, R736); nothing else changes. -/
def Obligations.EnvironmentCallsStop : Prop :=
  ∀ s : State,
    Stops .ecall s
      (.syscall (s.rx 17#5) (s.rx 10#5) (s.rx 11#5) (s.rx 12#5) (s.rx 13#5) (s.rx 14#5) (s.rx 15#5)) ∧
    Stops .ebreak s .breakpoint ∧ Stops .cEbreak s .breakpoint

/-- Resumption from a Syscall (R655, R656): the step of a hart stopped there is the host's return; a return with a result
changes x10, the bytes the host wrote, each of which reads the last value written there, the mapping if the host says so, and
pc to pc + 4, clears the reservation in reserve mode (R611), lets the hart run and changes nothing else; an exit ends it with the value of x10, keeps memory and leaves nothing of the
registers (R852, R853). That the return is the next step of the stopped hart is the model's choice (notes/assumptions/2.md),
so is its answer being the free value Config.syscall (notes/assumptions/4.md), of which nothing is assumed, and so are the
zeros that stand for discarded registers (notes/assumptions/10.md). -/
def Obligations.SyscallResumes : Prop :=
  ∀ (s : State) (r : StopRecord), s.status = .stopped r → r.event.isSyscall = true →
    step s = .next (hostReturn (Config.syscall s.hostCalls s.syscallView) s) ∧
    (∀ v ws m,
      let t := hostReturn (.resume v ws m) s
      XIs s t 10#5 v ∧ SameF s t ∧ t.fcsr = s.fcsr ∧ t.pc = s.pc + 4#64 ∧ t.status = .running ∧
      (∀ a : Word, (∀ c ∈ ws, c.1 ≠ a) → byteAt t.mem a.toNat = byteAt s.mem a.toNat) ∧
      (Memory.wf s.mem = true → ∀ before c later, ws = before ++ c :: later → (∀ d ∈ later, d.1 ≠ c.1) →
        byteAt t.mem c.1.toNat = c.2) ∧
      (s.params.lrscMode = .reserve → t.resv = none) ∧ (s.params.lrscMode = .plain → t.resv = s.resv) ∧
      t.otherHartWrote = s.otherHartWrote ∧ t.params = { s.params with mapping := m.getD s.params.mapping } ∧
      t.hart = s.hart ∧ t.hostCalls = s.hostCalls + 1) ∧
    (let t := hostReturn .exit s;
      t.params = s.params ∧ t.hart = s.hart ∧ t.hostCalls = s.hostCalls + 1 ∧
      t.status = .ended (s.rx 10#5) ∧ SameBytes s t ∧ (∀ j, t.rx j = 0#64) ∧ (∀ j, t.rf j = 0#64) ∧ t.pc = 0#64 ∧
      t.fcsr = 0#8 ∧ t.resv = none)

/-- The launch state (R850): fcsr 0, x0 reading 0, no reservation, not stopped; and the spec's defaults of the
parameters (R17): a misaligned plain access stops, no reservations are kept, every row is implemented. -/
def Obligations.LaunchState : Prop :=
  State.reset.fcsr = 0#8 ∧ State.reset.rx 0#5 = 0#64 ∧ State.reset.resv = none ∧ State.reset.status = .running ∧
  State.reset.params.misalignedPlain = .fault ∧ State.reset.params.lrscMode = .plain ∧
  State.reset.params.withheld = []

/-- The invariant holds at launch; that the pc is even there is the model's choice (notes/assumptions/3.md). -/
def Obligations.LaunchMeetsInvariant : Prop := Inv State.reset

/-- Every step keeps the invariant (R51, R58, R59, R66, R612), from every state that meets it. -/
def Obligations.StepKeepsInvariant : Prop := ∀ s t : State, Inv s → step s = .next t → Inv t

/-- The block never changes MAPPED or any other parameter of the host (R101, R17): a step of a running hart leaves them
as they are, whatever it executes. -/
def Obligations.RunningStepKeepsParams : Prop :=
  ∀ s t : State, s.status = .running → step s = .next t → SameParams s t

/-! ## Integer ALU (40_integer.md, 41_muldiv.md) -/

/-- LUI and AUIPC (R305, R306): the immediate times 4096, sign-extended, alone or added to the instruction's address; and
ADDI, SLTI, SLTIU, XORI, ORI and ANDI (R307 to R312), with the sign-extended immediate. -/
def Obligations.ImmediateForms : Prop :=
  ∀ (s : State) (rd rs1 : XReg) (upper : BitVec 20) (imm : BitVec 12),
    let a := s.rx rs1
    let b := BitVec.ofInt 64 imm.toInt
    SetsX (.lui rd upper) s (s.pc + 4#64) rd (BitVec.ofInt 64 (upper.toInt * 4096)) ∧
    SetsX (.auipc rd upper) s (s.pc + 4#64) rd (s.pc + BitVec.ofInt 64 (upper.toInt * 4096)) ∧
    SetsX (.addi rd rs1 imm) s (s.pc + 4#64) rd (a + b) ∧
    SetsX (.slti rd rs1 imm) s (s.pc + 4#64) rd (bit (a.toInt < imm.toInt)) ∧
    SetsX (.sltiu rd rs1 imm) s (s.pc + 4#64) rd (bit (a.toNat < b.toNat)) ∧
    SetsX (.xori rd rs1 imm) s (s.pc + 4#64) rd (a ^^^ b) ∧
    SetsX (.ori rd rs1 imm) s (s.pc + 4#64) rd (a ||| b) ∧
    SetsX (.andi rd rs1 imm) s (s.pc + 4#64) rd (a &&& b)

/-- ADD, SUB, SLT, SLTU, XOR, OR and AND (R316, R317, R319 to R321, R324, R325). -/
def Obligations.RegisterRegister : Prop :=
  ∀ (s : State) (rd rs1 rs2 : XReg),
    let a := s.rx rs1
    let b := s.rx rs2
    SetsX (.add rd rs1 rs2) s (s.pc + 4#64) rd (BitVec.ofInt 64 (a.toInt + b.toInt)) ∧
    SetsX (.sub rd rs1 rs2) s (s.pc + 4#64) rd (BitVec.ofInt 64 (a.toInt - b.toInt)) ∧
    SetsX (.slt rd rs1 rs2) s (s.pc + 4#64) rd (bit (a.toInt < b.toInt)) ∧
    SetsX (.sltu rd rs1 rs2) s (s.pc + 4#64) rd (bit (a.toNat < b.toNat)) ∧
    SetsX (.xor rd rs1 rs2) s (s.pc + 4#64) rd (a ^^^ b) ∧
    SetsX (.or rd rs1 rs2) s (s.pc + 4#64) rd (a ||| b) ∧
    SetsX (.and rd rs1 rs2) s (s.pc + 4#64) rd (a &&& b)

/-- The 64-bit shifts, immediate and register (R301, R313 to R315, R318, R322, R323): a left shift multiplies by 2^k
modulo 2^64, a logical right shift divides the unsigned value, an arithmetic one the signed value, rounding down; a
register amount counts modulo 64. -/
def Obligations.Shifts64 : Prop :=
  ∀ (s : State) (rd rs1 rs2 : XReg) (k : BitVec 6),
    let a := s.rx rs1
    let n := (s.rx rs2).toNat % 64
    SetsX (.slli rd rs1 k) s (s.pc + 4#64) rd (BitVec.ofNat 64 (a.toNat * 2 ^ k.toNat)) ∧
    SetsX (.srli rd rs1 k) s (s.pc + 4#64) rd (BitVec.ofNat 64 (a.toNat / 2 ^ k.toNat)) ∧
    SetsX (.srai rd rs1 k) s (s.pc + 4#64) rd (BitVec.ofInt 64 (a.toInt / 2 ^ k.toNat)) ∧
    SetsX (.sll rd rs1 rs2) s (s.pc + 4#64) rd (BitVec.ofNat 64 (a.toNat * 2 ^ n)) ∧
    SetsX (.srl rd rs1 rs2) s (s.pc + 4#64) rd (BitVec.ofNat 64 (a.toNat / 2 ^ n)) ∧
    SetsX (.sra rd rs1 rs2) s (s.pc + 4#64) rd (BitVec.ofInt 64 (a.toInt / 2 ^ n))

/-- The 32-bit views (R302, R326 to R334): the low 32 bits of the operands, the 32-bit result sign-extended, a register
shift amount modulo 32. -/
def Obligations.WordForms : Prop :=
  ∀ (s : State) (rd rs1 rs2 : XReg) (imm : BitVec 12) (k : BitVec 5),
    let a := s.rx rs1
    let b := s.rx rs2
    let n := b.toNat % 32
    SetsX (.addiw rd rs1 imm) s (s.pc + 4#64) rd (sextW (a.toInt + imm.toInt)) ∧
    SetsX (.addw rd rs1 rs2) s (s.pc + 4#64) rd (sextW (a.toInt + b.toInt)) ∧
    SetsX (.subw rd rs1 rs2) s (s.pc + 4#64) rd (sextW (a.toInt - b.toInt)) ∧
    SetsX (.slliw rd rs1 k) s (s.pc + 4#64) rd (sextW (uW a * 2 ^ k.toNat : Nat)) ∧
    SetsX (.srliw rd rs1 k) s (s.pc + 4#64) rd (sextW (uW a / 2 ^ k.toNat : Nat)) ∧
    SetsX (.sraiw rd rs1 k) s (s.pc + 4#64) rd (sextW (sW a / 2 ^ k.toNat)) ∧
    SetsX (.sllw rd rs1 rs2) s (s.pc + 4#64) rd (sextW (uW a * 2 ^ n : Nat)) ∧
    SetsX (.srlw rd rs1 rs2) s (s.pc + 4#64) rd (sextW (uW a / 2 ^ n : Nat)) ∧
    SetsX (.sraw rd rs1 rs2) s (s.pc + 4#64) rd (sextW (sW a / 2 ^ n))

/-- MUL, MULH, MULHSU, MULHU and MULW (R351 to R354, R359): the low half, and bits 127 to 64 of the exact product. -/
def Obligations.Multiplication : Prop :=
  ∀ (s : State) (rd rs1 rs2 : XReg),
    let a := s.rx rs1
    let b := s.rx rs2
    SetsX (.mul rd rs1 rs2) s (s.pc + 4#64) rd (BitVec.ofInt 64 (a.toInt * b.toInt)) ∧
    SetsX (.mulh rd rs1 rs2) s (s.pc + 4#64) rd (BitVec.ofInt 64 (a.toInt * b.toInt / 2 ^ 64)) ∧
    SetsX (.mulhsu rd rs1 rs2) s (s.pc + 4#64) rd (BitVec.ofInt 64 (a.toInt * b.toNat / 2 ^ 64)) ∧
    SetsX (.mulhu rd rs1 rs2) s (s.pc + 4#64) rd (BitVec.ofNat 64 (a.toNat * b.toNat / 2 ^ 64)) ∧
    SetsX (.mulw rd rs1 rs2) s (s.pc + 4#64) rd (sextW (a.toInt * b.toInt))

/-- Division and remainder (R350, R355 to R358, R360 to R363): rounding toward zero, with the results for a zero divisor and
for the most negative dividend over -1; the W forms on the 32-bit views, sign-extended. -/
def Obligations.Division : Prop :=
  (∀ (s : State) (rd rs1 rs2 : XReg),
      let a := s.rx rs1
      let b := s.rx rs2
      let overflow := a.toInt = -(2 ^ 63) ∧ b.toInt = -1
      SetsX (.div rd rs1 rs2) s (s.pc + 4#64) rd
        (if b.toNat = 0 then BitVec.ofInt 64 (-1) else if overflow then a else BitVec.ofInt 64 (a.toInt.tdiv b.toInt)) ∧
      SetsX (.divu rd rs1 rs2) s (s.pc + 4#64) rd
        (if b.toNat = 0 then BitVec.ofInt 64 (-1) else BitVec.ofNat 64 (a.toNat / b.toNat)) ∧
      SetsX (.rem rd rs1 rs2) s (s.pc + 4#64) rd
        (if b.toNat = 0 then a else if overflow then 0#64 else BitVec.ofInt 64 (a.toInt.tmod b.toInt)) ∧
      SetsX (.remu rd rs1 rs2) s (s.pc + 4#64) rd
        (if b.toNat = 0 then a else BitVec.ofNat 64 (a.toNat % b.toNat))) ∧
  (∀ (s : State) (rd rs1 rs2 : XReg),
      let a := s.rx rs1
      let b := s.rx rs2
      let overflow := sW a = -(2 ^ 31) ∧ sW b = -1
      SetsX (.divw rd rs1 rs2) s (s.pc + 4#64) rd
        (if uW b = 0 then BitVec.ofInt 64 (-1) else if overflow then BitVec.ofInt 64 (-(2 ^ 31))
          else sextW ((sW a).tdiv (sW b))) ∧
      SetsX (.divuw rd rs1 rs2) s (s.pc + 4#64) rd
        (if uW b = 0 then BitVec.ofInt 64 (-1) else sextW (uW a / uW b : Nat)) ∧
      SetsX (.remw rd rs1 rs2) s (s.pc + 4#64) rd
        (if uW b = 0 then sextW (sW a) else if overflow then 0#64 else sextW ((sW a).tmod (sW b))) ∧
      SetsX (.remuw rd rs1 rs2) s (s.pc + 4#64) rd
        (if uW b = 0 then sextW (sW a) else sextW (uW a % uW b : Nat)))

/-! ## Control flow (45_control.md) -/

/-- JAL and JALR (R551, R552, R556, R557): the link is pc + 4, written after the base is read, and a register-relative
target loses its bit 0. -/
def Obligations.Jumps : Prop :=
  ∀ (s : State) (rd rs1 : XReg) (off : BitVec 21) (imm : BitVec 12),
    SetsX (.jal rd off) s (s.pc + BitVec.ofInt 64 off.toInt) rd (s.pc + 4#64) ∧
    SetsX (.jalr rd rs1 imm) s
      (BitVec.ofNat 64 ((s.rx rs1 + BitVec.ofInt 64 imm.toInt).toNat / 2 * 2)) rd (s.pc + 4#64)

/-- The six branches (R558 to R563): to pc + offset if the condition holds, else to pc + 4, and nothing else changes. -/
def Obligations.Branches : Prop :=
  ∀ (s : State) (rs1 rs2 : XReg) (off : BitVec 13),
    let a := s.rx rs1
    let b := s.rx rs2
    let target := s.pc + BitVec.ofInt 64 off.toInt
    OnlyPc (.beq rs1 rs2 off) s (if a.toNat = b.toNat then target else s.pc + 4#64) ∧
    OnlyPc (.bne rs1 rs2 off) s (if a.toNat ≠ b.toNat then target else s.pc + 4#64) ∧
    OnlyPc (.blt rs1 rs2 off) s (if a.toInt < b.toInt then target else s.pc + 4#64) ∧
    OnlyPc (.bge rs1 rs2 off) s (if b.toInt ≤ a.toInt then target else s.pc + 4#64) ∧
    OnlyPc (.bltu rs1 rs2 off) s (if a.toNat < b.toNat then target else s.pc + 4#64) ∧
    OnlyPc (.bgeu rs1 rs2 off) s (if b.toNat ≤ a.toNat then target else s.pc + 4#64)

/-! ## Loads and stores (46_loadstore.md, 20_memory.md) -/

/-- The loads (R571, R574 to R580, R450, R500, R437): where the access is aligned or split and its bytes are mapped for
read, rd gets the little-endian value, extended as the instruction says; FLW and FLD give the raw pattern, boxed for FLW. -/
def Obligations.LoadsReadBytes : Prop :=
  ∀ (s : State) (rd rs1 : XReg) (frd : FReg) (imm : BitVec 12),
    let a := s.rx rs1 + BitVec.ofInt 64 imm.toInt
    let v := fun n => leNat s.mem a n
    (MappedAll s a 1 .read →
      SetsX (.lb rd rs1 imm) s (s.pc + 4#64) rd (BitVec.ofInt 64 (BitVec.ofNat 8 (v 1)).toInt) ∧
      SetsX (.lbu rd rs1 imm) s (s.pc + 4#64) rd (BitVec.ofNat 64 (v 1))) ∧
    (PlainAligned s a 2 → MappedAll s a 2 .read →
      SetsX (.lh rd rs1 imm) s (s.pc + 4#64) rd (BitVec.ofInt 64 (BitVec.ofNat 16 (v 2)).toInt) ∧
      SetsX (.lhu rd rs1 imm) s (s.pc + 4#64) rd (BitVec.ofNat 64 (v 2))) ∧
    (PlainAligned s a 4 → MappedAll s a 4 .read →
      SetsX (.lw rd rs1 imm) s (s.pc + 4#64) rd (BitVec.ofInt 64 (BitVec.ofNat 32 (v 4)).toInt) ∧
      SetsX (.lwu rd rs1 imm) s (s.pc + 4#64) rd (BitVec.ofNat 64 (v 4)) ∧
      SetsF (.flw frd rs1 imm) s (s.pc + 4#64) frd (BitVec.ofNat 64 (0xFFFFFFFF * 2 ^ 32 + v 4))) ∧
    (PlainAligned s a 8 → MappedAll s a 8 .read →
      SetsX (.ld rd rs1 imm) s (s.pc + 4#64) rd (BitVec.ofNat 64 (v 8)) ∧
      SetsF (.fld frd rs1 imm) s (s.pc + 4#64) frd (BitVec.ofNat 64 (v 8)))

/-- SB, SH, SW, SD, FSW and FSD (R572, R581 to R584, R451, R501): where the access is aligned or split and its bytes are
mapped for write, the low bytes of the source register are stored and every other byte is unchanged. -/
def Obligations.StoresWriteBytes : Prop :=
  ∀ (s : State) (rs2 rs1 : XReg) (frs2 : FReg) (imm : BitVec 12), Memory.wf s.mem = true →
    let a := s.rx rs1 + BitVec.ofInt 64 imm.toInt
    (MappedAll s a 1 .write → Stores (.sb rs2 rs1 imm) s (s.pc + 4#64) a 1 (s.rx rs2)) ∧
    (PlainAligned s a 2 → MappedAll s a 2 .write → Stores (.sh rs2 rs1 imm) s (s.pc + 4#64) a 2 (s.rx rs2)) ∧
    (PlainAligned s a 4 → MappedAll s a 4 .write →
      Stores (.sw rs2 rs1 imm) s (s.pc + 4#64) a 4 (s.rx rs2) ∧
      Stores (.fsw frs2 rs1 imm) s (s.pc + 4#64) a 4 (s.rf frs2)) ∧
    (PlainAligned s a 8 → MappedAll s a 8 .write →
      Stores (.sd rs2 rs1 imm) s (s.pc + 4#64) a 8 (s.rx rs2) ∧
      Stores (.fsd frs2 rs1 imm) s (s.pc + 4#64) a 8 (s.rf frs2))

/-- A misaligned access stops before any mapping is looked at (R105): a plain one under MISALIGNED_PLAIN = fault with
MisalignedAccess (R107), an atomic one always with MisalignedAtomic (R108), at its address. It is said of every instruction
that asks the load-store unit for something. -/
def Obligations.MisalignedStops : Prop :=
  ∀ (s : State) (i : Instr) (q : LsuReq), dataRequest i s = some q →
    let a := (requestShape q).1
    a.toNat % (requestShape q).2.1 ≠ 0 →
    (AtomicRequest q → Stops i s (.misalignedAtomic a)) ∧
    (¬ AtomicRequest q → s.params.misalignedPlain = .fault → Stops i s (.misalignedAccess a))

/-- An access that passes the alignment check but has a byte that is not mapped stops with MemoryFault (R106, R801): the
byte reported is the one with the least address among those that fail, and the kind the first that fails there. It is said
of every instruction that asks the load-store unit for something; that the least address counts when an access wraps, and
the read before the write, is the model's reading (notes/assumptions/8.md). -/
def Obligations.UnmappedAccessStops : Prop :=
  ∀ (s : State) (i : Instr) (q : LsuReq), dataRequest i s = some q → PassesAlignment s q →
    let bytes := accessBytes (requestShape q).1 (requestShape q).2.1
    let kinds := (requestShape q).2.2
    (∃ b ∈ bytes, ∃ k ∈ kinds, mapped s.params b k = false) →
    ∃ b ∈ bytes, ∃ k ∈ kinds, mapped s.params b k = false ∧ Stops i s (.memoryFault b k) ∧
      (∀ c ∈ bytes, c.toNat < b.toNat → ∀ j ∈ kinds, mapped s.params c j = true) ∧
      (k = .write → AccessKind.read ∈ kinds → mapped s.params b .read = true)

/-- Accesses are resolved by bytes (R102, R103): a read inside bytes just written, at any offset and width that fit, gives
the bytes of the value from that offset on; at offset 0 and the same width, the bits stored (R704). It holds across the
top of the address space too. -/
def Obligations.MixedWidthReads : Prop :=
  ∀ (m : Memory) (a v : Word) (w k n : Nat), Memory.wf m = true → w ≤ 8 → k + n ≤ w →
    (memRead (memWrite m a w v) (a + BitVec.ofNat 64 k) n).toNat = v.toNat / 256 ^ k % 256 ^ n

/-- Memory changes only where a step's own events write (R120): a byte outside the bytes of every write or
read-modify-write of the step reads as before. A stopped hart's step has the host's writes as its events (R120, R655); that
the host's return is a step is the model's choice (notes/assumptions/2.md), as is one event for each byte it wrote
(notes/assumptions/14.md). -/
def Obligations.MemoryChangesByEvents : Prop :=
  ∀ (s t : State) (n : Nat) (a : Word), step s = .next t →
    (∀ e ∈ stepEvents n s, e.kind = .write ∨ e.kind = .rmw → a ∉ accessBytes e.addr e.bytes) →
    byteAt t.mem a.toNat = byteAt s.mem a.toNat

/-! ## Atomics (47_atomic.md) -/

/-- LR.W and LR.D (R610, R612, R615, R617): rd gets the value, sign-extended; in reserve mode the reservation is of these
bytes, and in plain mode there is none to take. That the bit otherHartWrote is cleared in reserve mode is the model's choice
(notes/assumptions/9.md, DESIGN CHOICE): writes of other harts before the LR no longer count. -/
def Obligations.LoadReserved : Prop :=
  ∀ (s : State) (rd rs1 : XReg) (aq rl : Bool),
    let a := s.rx rs1
    let resv := fun (n : Nat) (t : State) =>
      (s.params.lrscMode = .plain → SameResv s t) ∧
      (s.params.lrscMode = .reserve → t.resv = some { addr := a, bytes := n } ∧ t.otherHartWrote = false)
    (a.toNat % 4 = 0 → MappedAll s a 4 .read → Answers (.lrW rd rs1 aq rl) s fun t =>
      t.pc = s.pc + 4#64 ∧ XIs s t rd (BitVec.ofInt 64 (BitVec.ofNat 32 (leNat s.mem a 4)).toInt) ∧ SameF s t ∧
      t.fcsr = s.fcsr ∧ SameBytes s t ∧ resv 4 t ∧ SameHost s t) ∧
    (a.toNat % 8 = 0 → MappedAll s a 8 .read → Answers (.lrD rd rs1 aq rl) s fun t =>
      t.pc = s.pc + 4#64 ∧ XIs s t rd (BitVec.ofNat 64 (leNat s.mem a 8)) ∧ SameF s t ∧
      t.fcsr = s.fcsr ∧ SameBytes s t ∧ resv 8 t ∧ SameHost s t)

/-- SC.W and SC.D (R610, R611, R613, R616, R618): in plain mode the store is made and rd gets 0; in reserve mode it is made
exactly if the reservation is of these bytes and no other hart has written them, rd gets 0 or 1, and the reservation is
gone in both cases. The bit otherHartWrote stands for R613's condition on the coherence order, which one hart's state does
not hold: the model's choice (notes/assumptions/9.md, DESIGN CHOICE). -/
def Obligations.StoreConditional : Prop :=
  ∀ (s : State) (rd rs1 rs2 : XReg) (aq rl : Bool), Memory.wf s.mem = true →
    let a := s.rx rs1
    let ok := fun n : Nat => s.params.lrscMode = .plain ∨
      (s.resv = some { addr := a, bytes := n } ∧ s.otherHartWrote = false)
    let after := fun (n : Nat) (t : State) => t.pc = s.pc + 4#64 ∧ SameF s t ∧ t.fcsr = s.fcsr ∧ SameHost s t ∧
      t.otherHartWrote = s.otherHartWrote ∧
      (s.params.lrscMode = .plain → t.resv = s.resv) ∧ (s.params.lrscMode = .reserve → t.resv = none) ∧
      (ok n → XIs s t rd 0#64 ∧ BytesAre s t a n (s.rx rs2)) ∧ (¬ ok n → XIs s t rd 1#64 ∧ SameBytes s t)
    (a.toNat % 4 = 0 → MappedAll s a 4 .write → Answers (.scW rd rs1 rs2 aq rl) s (after 4)) ∧
    (a.toNat % 8 = 0 → MappedAll s a 8 .write → Answers (.scD rd rs1 rs2 aq rl) s (after 8))

/-- The AMOs (R601, R602, R620 to R637): rd gets the old value, sign-extended, and memory becomes kind(old, v) on 32 or 64
bits; the reservation is not touched (R611). -/
def Obligations.AtomicReadModifyWrite : Prop :=
  (∀ (s : State) (rd rs1 rs2 : XReg) (aq rl : Bool), Memory.wf s.mem = true →
      let a := s.rx rs1
      let old := BitVec.ofNat 32 (leNat s.mem a 4)
      let effect := fun i kind =>
        SetsXStores i s rd (BitVec.ofInt 64 old.toInt) a 4 ((amoNew kind old ((s.rx rs2).setWidth 32)).setWidth 64)
      a.toNat % 4 = 0 → MappedAll s a 4 .read → MappedAll s a 4 .write →
      effect (.amoswapW rd rs1 rs2 aq rl) .swap ∧ effect (.amoaddW rd rs1 rs2 aq rl) .add ∧
      effect (.amoxorW rd rs1 rs2 aq rl) .xor ∧ effect (.amoandW rd rs1 rs2 aq rl) .and ∧
      effect (.amoorW rd rs1 rs2 aq rl) .or ∧ effect (.amominW rd rs1 rs2 aq rl) .min ∧
      effect (.amomaxW rd rs1 rs2 aq rl) .max ∧ effect (.amominuW rd rs1 rs2 aq rl) .minu ∧
      effect (.amomaxuW rd rs1 rs2 aq rl) .maxu) ∧
  (∀ (s : State) (rd rs1 rs2 : XReg) (aq rl : Bool), Memory.wf s.mem = true →
      let a := s.rx rs1
      let old := BitVec.ofNat 64 (leNat s.mem a 8)
      let effect := fun i kind => SetsXStores i s rd old a 8 (amoNew kind old (s.rx rs2))
      a.toNat % 8 = 0 → MappedAll s a 8 .read → MappedAll s a 8 .write →
      effect (.amoswapD rd rs1 rs2 aq rl) .swap ∧ effect (.amoaddD rd rs1 rs2 aq rl) .add ∧
      effect (.amoxorD rd rs1 rs2 aq rl) .xor ∧ effect (.amoandD rd rs1 rs2 aq rl) .and ∧
      effect (.amoorD rd rs1 rs2 aq rl) .or ∧ effect (.amominD rd rs1 rs2 aq rl) .min ∧
      effect (.amomaxD rd rs1 rs2 aq rl) .max ∧ effect (.amominuD rd rs1 rs2 aq rl) .minu ∧
      effect (.amomaxuD rd rs1 rs2 aq rl) .maxu)

/-- The order an atomic access carries (R127): aq and rl of an AMO select one of the four orders; an LR is an acquire or
relaxed read by aq alone, and an SC a release or relaxed write by rl alone. It is said of the events of every LR, SC and AMO,
word and doubleword, when they are admitted; an AMO's write continues a release sequence, and an SC's does in reserve mode
(R123). -/
def Obligations.AtomicOrders : Prop :=
  ∀ (s : State) (n : Nat) (rd rs1 rs2 : XReg) (aq rl : Bool),
    (∀ i ∈ [Instr.lrW rd rs1 aq rl, .lrD rd rs1 aq rl], ∀ e ∈ dataEvents n i s,
      e.kind = .read ∧ (e.order = .acquire ↔ aq = true) ∧ (e.order = .relaxed ↔ aq = false) ∧
      (e.reserves = true ↔ s.params.lrscMode = .reserve)) ∧
    (∀ i ∈ [Instr.scW rd rs1 rs2 aq rl, .scD rd rs1 rs2 aq rl], ∀ e ∈ dataEvents n i s,
      e.kind = .write ∧ (e.order = .release ↔ rl = true) ∧ (e.order = .relaxed ↔ rl = false) ∧
      (e.continues = true ↔ s.params.lrscMode = .reserve)) ∧
    (∀ i ∈ [Instr.amoswapW rd rs1 rs2 aq rl, .amoaddW rd rs1 rs2 aq rl, .amoxorW rd rs1 rs2 aq rl,
        .amoandW rd rs1 rs2 aq rl, .amoorW rd rs1 rs2 aq rl, .amominW rd rs1 rs2 aq rl, .amomaxW rd rs1 rs2 aq rl,
        .amominuW rd rs1 rs2 aq rl, .amomaxuW rd rs1 rs2 aq rl, .amoswapD rd rs1 rs2 aq rl, .amoaddD rd rs1 rs2 aq rl,
        .amoxorD rd rs1 rs2 aq rl, .amoandD rd rs1 rs2 aq rl, .amoorD rd rs1 rs2 aq rl, .amominD rd rs1 rs2 aq rl,
        .amomaxD rd rs1 rs2 aq rl, .amominuD rd rs1 rs2 aq rl, .amomaxuD rd rs1 rs2 aq rl],
      ∀ e ∈ dataEvents n i s, e.kind = .rmw ∧ e.continues = true ∧
        (e.order = .relaxed ↔ aq = false ∧ rl = false) ∧ (e.order = .acquire ↔ aq = true ∧ rl = false) ∧
        (e.order = .release ↔ aq = false ∧ rl = true) ∧ (e.order = .acqRel ↔ aq = true ∧ rl = true))

/-! ## Memory consistency (20_memory.md) -/

/-- Message passing and store buffering (R128, R129) in every consistent execution. If a hart writes data and later releases a
flag, by a release write or by any write with a FENCE before it and after the data, and another hart reads from that flag
write or its release sequence and acquires, by an acquire read or by any read with a FENCE after it, and later reads the data,
it reads that data write or a later one (R123, R124). If two harts each write, fence and read the other's byte, not both read
values older than the other's write; this rests on the axioms FencesOrdered, which are the model's reading of R124 (notes/assumptions/12.md,
DEDUCED). And an indivisible read whose bytes were all written by writes of exactly its own footprint returns one of them
whole (R110); this rests on the axioms SingleCopyAtomic, the model's reading of R110 (notes/assumptions/14.md, DEDUCED). -/
def Obligations.LitmusOutcomes : Prop :=
  (∀ (X : Execution) (data release flag read acquire last : Nat) (a : Word), X.Consistent →
      X.Writes data a → X.po data release →
      ((release = flag ∧ ∃ ev, X.Is flag ev ∧ ev.order.releases = true ∧ ev.kind ≠ .fence) ∨
        (X.IsFence release ∧ X.po release flag)) →
      X.ReadsFromSeq flag read →
      ((acquire = read ∧ ∃ ev, X.Is read ev ∧ ev.order.acquires = true ∧ ev.kind ≠ .fence) ∨
        (X.IsFence acquire ∧ X.po read acquire)) →
      X.po acquire last → X.Reads last a → X.rf last a = data ∨ X.mo a data (X.rf last a)) ∧
  (∀ (X : Execution) (w1 f1 r1 w2 f2 r2 : Nat) (a b : Word), X.Consistent →
      X.Writes w1 a → X.po w1 f1 → X.IsFence f1 → X.po f1 r1 → X.Reads r1 b →
      X.Writes w2 b → X.po w2 f2 → X.IsFence f2 → X.po f2 r2 → X.Reads r2 a → f1 ≠ f2 →
      (X.rf r1 b = w2 ∨ X.mo b w2 (X.rf r1 b)) ∨ (X.rf r2 a = w1 ∨ X.mo a w1 (X.rf r2 a))) ∧
  (∀ (X : Execution) (r : Nat) (rv : MemEvent), X.Consistent → X.Is r rv → rv.Indivisible →
      (rv.kind = .read ∨ rv.kind = .rmw) →
      (∀ a ∈ accessBytes rv.addr rv.bytes, ∃ wv, X.Is (X.rf r a) wv ∧ wv.addr = rv.addr ∧ wv.bytes = rv.bytes) →
      ∀ a ∈ accessBytes rv.addr rv.bytes, ∀ b ∈ accessBytes rv.addr rv.bytes, X.rf r a = X.rf r b)

/-! ## Fences and CSRs (48_system.md) -/

/-- FENCE and FENCE.I only move the pc, whatever their fields (R211, R650, R651); a FENCE makes one fence event and a
FENCE.I none. -/
def Obligations.FencesMoveOnlyPc : Prop :=
  ∀ (s : State) (n : Nat) (fm pred succ : BitVec 4) (imm : BitVec 12) (rs1 rd : XReg),
    OnlyPc (.fence fm pred succ rs1 rd) s (s.pc + 4#64) ∧ OnlyPc (.fenceI imm rs1 rd) s (s.pc + 4#64) ∧
    (dataEvents n (.fence fm pred succ rs1 rd) s).map MemEvent.kind = [.fence] ∧
    dataEvents n (.fenceI imm rs1 rd) s = []

/-- The six CSR instructions (R65, R658, R660 to R665): rd gets the old value; CSRRW and CSRRWI always write; the set and
clear forms write only if rs1 is not x0 or uimm is not 0; frm takes any value. -/
def Obligations.CsrInstructions : Prop :=
  ∀ (s : State) (rd rs1 : XReg) (c : Csr) (u : BitVec 5),
    let old := csrValue s.fcsr c
    let x := s.rx rs1
    let z := BitVec.ofNat 64 u.toNat
    SetsCsr (.csrrw rd c rs1) s rd old (csrAfter s.fcsr x c) ∧
    SetsCsr (.csrrs rd c rs1) s rd old (if rs1 = 0#5 then s.fcsr else csrAfter s.fcsr (old ||| x) c) ∧
    SetsCsr (.csrrc rd c rs1) s rd old (if rs1 = 0#5 then s.fcsr else csrAfter s.fcsr (old &&& ~~~x) c) ∧
    SetsCsr (.csrrwi rd c u) s rd old (csrAfter s.fcsr z c) ∧
    SetsCsr (.csrrsi rd c u) s rd old (if u.toNat = 0 then s.fcsr else csrAfter s.fcsr (old ||| z) c) ∧
    SetsCsr (.csrrci rd c u) s rd old (if u.toNat = 0 then s.fcsr else csrAfter s.fcsr (old &&& ~~~z) c)

/-! ## Floating point (42_fp_numerics.md, 43_fp_single.md, 44_fp_double.md) -/

/-- The effective rounding mode (R404): the rm field's own mode, or with DYN the mode frm holds, by number; and an instruction
with an rm field stops with IllegalRoundingMode, before anything else, if rm is DYN and frm is 5, 6 or 7 (R405), those
whose result is always exact too. -/
def Obligations.RoundingModes : Prop :=
  (∀ (rm : Rm) (fcsr : BitVec 8),
    effectiveMode rm fcsr =
      if rm.toBits = 7#3 then modeByNumber (fcsr.toNat / 32) else modeByNumber rm.toBits.toNat) ∧
  ∀ (s : State) (d a b c : FReg) (x : XReg), 5 ≤ s.fcsr.toNat / 32 →
    ∀ i ∈ [.fmaddS d a b c .dyn, .fmsubS d a b c .dyn, .fnmsubS d a b c .dyn, .fnmaddS d a b c .dyn,
      .fmaddD d a b c .dyn, .fmsubD d a b c .dyn, .fnmsubD d a b c .dyn, .fnmaddD d a b c .dyn,
      .faddS d a b .dyn, .fsubS d a b .dyn, .fmulS d a b .dyn, .fdivS d a b .dyn, .fsqrtS d a .dyn,
      .faddD d a b .dyn, .fsubD d a b .dyn, .fmulD d a b .dyn, .fdivD d a b .dyn, .fsqrtD d a .dyn,
      .fcvtWS x a .dyn, .fcvtWUS x a .dyn, .fcvtLS x a .dyn, .fcvtLUS x a .dyn,
      .fcvtWD x a .dyn, .fcvtWUD x a .dyn, .fcvtLD x a .dyn, .fcvtLUD x a .dyn,
      .fcvtSW d x .dyn, .fcvtSWU d x .dyn, .fcvtSL d x .dyn, .fcvtSLU d x .dyn,
      .fcvtDW d x .dyn, .fcvtDWU d x .dyn, .fcvtDL d x .dyn, .fcvtDLU d x .dyn,
      .fcvtSD d a .dyn, .fcvtDS d a .dyn],
    Stops i s (.illegalRoundingMode (BitVec.ofNat 3 (s.fcsr.toNat / 32)))

/-- The S arithmetic (R456 to R460, R452 to R455): operands unboxed, the result boxed, flags accrued, under the effective
mode. -/
def Obligations.SingleArithmetic : Prop :=
  ∀ (s : State) (d a b c : FReg) (rm : Rm) (m : RoundingMode), effectiveMode rm s.fcsr = some m →
    let x := unboxS (s.rf a)
    let y := unboxS (s.rf b)
    let z := unboxS (s.rf c)
    SetsFFlags (.faddS d a b rm) s d (boxed (fmtS.add m x y)) ∧
    SetsFFlags (.fsubS d a b rm) s d (boxed (fmtS.sub m x y)) ∧
    SetsFFlags (.fmulS d a b rm) s d (boxed (fmtS.mul m x y)) ∧
    SetsFFlags (.fdivS d a b rm) s d (boxed (fmtS.div m x y)) ∧
    SetsFFlags (.fsqrtS d a rm) s d (boxed (fmtS.sqrt m x)) ∧
    SetsFFlags (.fmaddS d a b c rm) s d (boxed (fmtS.madd m x y z)) ∧
    SetsFFlags (.fmsubS d a b c rm) s d (boxed (fmtS.msub m x y z)) ∧
    SetsFFlags (.fnmsubS d a b c rm) s d (boxed (fmtS.nmsub m x y z)) ∧
    SetsFFlags (.fnmaddS d a b c rm) s d (boxed (fmtS.nmadd m x y z))

/-- The D arithmetic (R502 to R510) on the whole containers. -/
def Obligations.DoubleArithmetic : Prop :=
  ∀ (s : State) (d a b c : FReg) (rm : Rm) (m : RoundingMode), effectiveMode rm s.fcsr = some m →
    SetsFFlags (.faddD d a b rm) s d (fmtD.add m (s.rf a) (s.rf b)) ∧
    SetsFFlags (.fsubD d a b rm) s d (fmtD.sub m (s.rf a) (s.rf b)) ∧
    SetsFFlags (.fmulD d a b rm) s d (fmtD.mul m (s.rf a) (s.rf b)) ∧
    SetsFFlags (.fdivD d a b rm) s d (fmtD.div m (s.rf a) (s.rf b)) ∧
    SetsFFlags (.fsqrtD d a rm) s d (fmtD.sqrt m (s.rf a)) ∧
    SetsFFlags (.fmaddD d a b c rm) s d (fmtD.madd m (s.rf a) (s.rf b) (s.rf c)) ∧
    SetsFFlags (.fmsubD d a b c rm) s d (fmtD.msub m (s.rf a) (s.rf b) (s.rf c)) ∧
    SetsFFlags (.fnmsubD d a b c rm) s d (fmtD.nmsub m (s.rf a) (s.rf b) (s.rf c)) ∧
    SetsFFlags (.fnmaddD d a b c rm) s d (fmtD.nmadd m (s.rf a) (s.rf b) (s.rf c))

/-- Sign injection (R435, R461 to R463, R511 to R513): the sign bit replaced, all other bits of a kept; and the raw moves
(R436, R470, R479, R526, R531): bits only, FMV.X.W sign-extending the raw low word and FMV.W.X boxing. No flag, no mode. -/
def Obligations.SignInjectionAndMoves : Prop :=
  ∀ (s : State) (d a b : FReg) (x : XReg),
    let p := s.pc + 4#64
    let y := unboxS (s.rf a)
    let z := unboxS (s.rf b)
    let u := s.rf a
    let v := s.rf b
    let box := fun r : BitVec 32 => (boxed (r, noFlags)).1
    SetsF (.fsgnjS d a b) s p d (box (z.extractLsb' 31 1 ++ y.extractLsb' 0 31)) ∧
    SetsF (.fsgnjnS d a b) s p d (box (~~~(z.extractLsb' 31 1) ++ y.extractLsb' 0 31)) ∧
    SetsF (.fsgnjxS d a b) s p d (box ((y.extractLsb' 31 1 ^^^ z.extractLsb' 31 1) ++ y.extractLsb' 0 31)) ∧
    SetsF (.fsgnjD d a b) s p d (v.extractLsb' 63 1 ++ u.extractLsb' 0 63) ∧
    SetsF (.fsgnjnD d a b) s p d (~~~(v.extractLsb' 63 1) ++ u.extractLsb' 0 63) ∧
    SetsF (.fsgnjxD d a b) s p d ((u.extractLsb' 63 1 ^^^ v.extractLsb' 63 1) ++ u.extractLsb' 0 63) ∧
    SetsX (.fmvXW x a) s p x (BitVec.ofInt 64 (sW u)) ∧
    SetsF (.fmvWX d x) s p d (BitVec.ofNat 64 (0xFFFFFFFF * 2 ^ 32 + uW (s.rx x))) ∧
    SetsX (.fmvXD x a) s p x u ∧ SetsF (.fmvDX d x) s p d (s.rx x)

/-- FMIN, FMAX, FEQ, FLT and FLE complete with the model's functions on the operands read as R412 and R414 say (what those
functions are is said by MinMaxSelect and ComparesByValue), and FCLASS with the class bit of the pattern's fields (R402,
R429). -/
def Obligations.SelectCompareClassify : Prop :=
  ∀ (s : State) (rd : XReg) (d a b : FReg),
    let x := unboxS (s.rf a)
    let y := unboxS (s.rf b)
    SetsFFlags (.fminS d a b) s d (boxed (fmtS.min x y)) ∧ SetsFFlags (.fmaxS d a b) s d (boxed (fmtS.max x y)) ∧
    SetsFFlags (.fminD d a b) s d (fmtD.min (s.rf a) (s.rf b)) ∧
    SetsFFlags (.fmaxD d a b) s d (fmtD.max (s.rf a) (s.rf b)) ∧
    SetsXFlags (.feqS rd a b) s rd (fmtS.feq x y) ∧ SetsXFlags (.fltS rd a b) s rd (fmtS.flt x y) ∧
    SetsXFlags (.fleS rd a b) s rd (fmtS.fle x y) ∧
    SetsXFlags (.feqD rd a b) s rd (fmtD.feq (s.rf a) (s.rf b)) ∧
    SetsXFlags (.fltD rd a b) s rd (fmtD.flt (s.rf a) (s.rf b)) ∧
    SetsXFlags (.fleD rd a b) s rd (fmtD.fle (s.rf a) (s.rf b)) ∧
    SetsX (.fclassS rd a) s (s.pc + 4#64) rd
      (classBit (x.extractLsb' 23 8).toNat 255 (x.extractLsb' 0 23).toNat (2 ^ 22) (x.extractLsb' 31 1 = 1#1)) ∧
    SetsX (.fclassD rd a) s (s.pc + 4#64) rd
      (classBit ((s.rf a).extractLsb' 52 11).toNat 2047 ((s.rf a).extractLsb' 0 52).toNat (2 ^ 51)
        ((s.rf a).extractLsb' 63 1 = 1#1))

/-- The sixteen conversions between floats and integers and the two between formats (R466 to R469, R475 to R478, R516,
R517, R522 to R525, R527 to R530) complete with the model's conversions under the effective mode; what those are is said
by FloatToIntSaturates, IntToFloatRounds and ConversionValues. -/
def Obligations.ConversionsComplete : Prop :=
  ∀ (s : State) (x : XReg) (d a : FReg) (rm : Rm) (m : RoundingMode), effectiveMode rm s.fcsr = some m →
    let u := unboxS (s.rf a)
    let v := s.rf a
    let n := s.rx x
    SetsXFlags (.fcvtWS x a rm) s x (fmtS.toInt .w m u) ∧ SetsXFlags (.fcvtWUS x a rm) s x (fmtS.toInt .wu m u) ∧
    SetsXFlags (.fcvtLS x a rm) s x (fmtS.toInt .l m u) ∧ SetsXFlags (.fcvtLUS x a rm) s x (fmtS.toInt .lu m u) ∧
    SetsXFlags (.fcvtWD x a rm) s x (fmtD.toInt .w m v) ∧ SetsXFlags (.fcvtWUD x a rm) s x (fmtD.toInt .wu m v) ∧
    SetsXFlags (.fcvtLD x a rm) s x (fmtD.toInt .l m v) ∧ SetsXFlags (.fcvtLUD x a rm) s x (fmtD.toInt .lu m v) ∧
    SetsFFlags (.fcvtSW d x rm) s d (boxed (fmtS.ofInt .w m n)) ∧
    SetsFFlags (.fcvtSWU d x rm) s d (boxed (fmtS.ofInt .wu m n)) ∧
    SetsFFlags (.fcvtSL d x rm) s d (boxed (fmtS.ofInt .l m n)) ∧
    SetsFFlags (.fcvtSLU d x rm) s d (boxed (fmtS.ofInt .lu m n)) ∧
    SetsFFlags (.fcvtDW d x rm) s d (fmtD.ofInt .w m n) ∧ SetsFFlags (.fcvtDWU d x rm) s d (fmtD.ofInt .wu m n) ∧
    SetsFFlags (.fcvtDL d x rm) s d (fmtD.ofInt .l m n) ∧ SetsFFlags (.fcvtDLU d x rm) s d (fmtD.ofInt .lu m n) ∧
    SetsFFlags (.fcvtSD d a rm) s d (boxed (fmtS.ofFloat fmtD m v)) ∧
    SetsFFlags (.fcvtDS d a rm) s d (fmtD.ofFloat fmtS m u)

/-- NaN-boxing (R410, R411, R414): unboxing a boxed pattern gives it back, a container whose upper half is not all ones
reads as the canonical NaN, and a boxed single read as a double is a quiet NaN. -/
def Obligations.NaNBoxing : Prop :=
  (∀ v : BitVec 32, unboxS (boxS v) = v ∧ (boxS v).toNat = 0xFFFFFFFF * 2 ^ 32 + v.toNat ∧
    IsNaN fmtD (boxS v) ∧ ¬ IsSNaN fmtD (boxS v) ∧ fmtD.fclass (boxS v) = 0x200#64) ∧
  ∀ c : Word, c.toNat / 2 ^ 32 ≠ 0xFFFFFFFF → unboxS c = 0x7FC00000#32

/-- NaN operands of the arithmetic (R421, R422, R423, R438), in both formats: the result is the canonical NaN whatever the
payloads and signs, with NV exactly if an operand is signaling, and no other flag; for an FMA also if it multiplies an
infinity and a zero (R424). -/
def Obligations.NaNOperands : Prop :=
  ∀ (w : Nat) (F : Fmt w), IsFormat F → ∀ (m : RoundingMode) (a b c : BitVec w),
    (IsNaN F a ∨ IsNaN F b → ∀ r ∈ [F.add m a b, F.sub m a b, F.mul m a b, F.div m a b],
      GivesNaN r (IsSNaN F a ∨ IsSNaN F b)) ∧
    (IsNaN F a → GivesNaN (F.sqrt m a) (IsSNaN F a)) ∧
    (IsNaN F a ∨ IsNaN F b ∨ IsNaN F c → ∀ f ∈ fusedForms F,
      GivesNaN (f.1 m a b c) (IsSNaN F a ∨ IsSNaN F b ∨ IsSNaN F c ∨ infTimesZero (F.datum a) (F.datum b) = true))

/-- Infinities, invalid operations on operands that are no NaN, and division by zero (R420, R421, R424 to R426), by the values
the patterns denote, in both formats. For the four fused forms the product and the addend count with the signs the form
gives them. -/
def Obligations.InvalidAndDivideByZero : Prop :=
  ∀ (w : Nat) (F : Fmt w), IsFormat F → ∀ (m : RoundingMode) (a b c : BitVec w) (n1 n2 n3 : Bool) (m1 m2 m3 : Nat)
      (e1 e2 e3 : Int),
    let nv := fun r : BitVec w × FlagSet => r = (F.canonicalNaN, flagNV)
    let inf := fun (r : BitVec w × FlagSet) (neg : Bool) => r = (F.infinity neg, noFlags)
    (F.datum a = .inf n1 → F.datum b = .inf n2 → nv (F.div m a b) ∧ inf (F.mul m a b) (n1 ^^ n2) ∧
      (n1 ≠ n2 → nv (F.add m a b) ∧ inf (F.sub m a b) n1) ∧ (n1 = n2 → nv (F.sub m a b) ∧ inf (F.add m a b) n1)) ∧
    (F.datum a = .inf n1 → F.datum b = .fin n2 0 e2 → nv (F.mul m a b) ∧ nv (F.mul m b a)) ∧
    (F.datum a = .inf n1 → F.datum b = .fin n2 m2 e2 →
      inf (F.add m a b) n1 ∧ inf (F.add m b a) n1 ∧ inf (F.sub m a b) n1 ∧ inf (F.sub m b a) (!n1) ∧
      inf (F.div m a b) (n1 ^^ n2) ∧ F.div m b a = (zeroOf (n1 ^^ n2), noFlags) ∧
      (m2 ≠ 0 → inf (F.mul m a b) (n1 ^^ n2) ∧ inf (F.mul m b a) (n1 ^^ n2))) ∧
    (F.datum a = .fin n1 0 e1 → F.datum b = .fin n2 0 e2 → nv (F.div m a b)) ∧
    (F.datum a = .fin true m1 e1 → m1 ≠ 0 → nv (F.sqrt m a)) ∧ (F.datum a = .inf true → nv (F.sqrt m a)) ∧
    (F.datum a = .inf false → inf (F.sqrt m a) false) ∧
    (F.datum a = .fin n1 0 e1 → F.sqrt m a = (a, noFlags)) ∧
    (F.datum a = .fin n1 m1 e1 → m1 ≠ 0 → F.datum b = .fin n2 0 e2 →
      F.div m a b = (F.infinity (n1 ^^ n2), flagDZ)) ∧
    ∀ f ∈ fusedForms F,
      let product := f.2.1 ^^ n1 ^^ n2
      let addend := f.2.2 ^^ n3
      let infinite := fun r : BitVec w × FlagSet =>
        (F.datum c = .inf n3 → (product ≠ addend → nv r) ∧ (product = addend → inf r product)) ∧
        (F.datum c = .fin n3 m3 e3 → inf r product)
      (F.datum a = .inf n1 → F.datum b = .fin n2 0 e2 → nv (f.1 m a b c) ∧ nv (f.1 m b a c)) ∧
      (F.datum a = .inf n1 → F.datum b = .fin n2 m2 e2 → m2 ≠ 0 → infinite (f.1 m a b c) ∧ infinite (f.1 m b a c)) ∧
      (F.datum a = .inf n1 → F.datum b = .inf n2 → infinite (f.1 m a b c)) ∧
      (F.datum a = .fin n1 m1 e1 → F.datum b = .fin n2 m2 e2 → F.datum c = .inf n3 → inf (f.1 m a b c) addend)

/-- Exact zero results, in both formats, with no flag. Zero sums of FADD, FSUB and the four fused forms (R419): zeros of one
sign keep it; every other zero sum is +0, and -0 in RDN. For FSUB, x - y is x + (-y), and a fused form adds its addend to
its product with the signs it gives them. A zero product, and zero divided by a number that is not zero, have the sign
of the operands' signs exclusive-or'd (R420). -/
def Obligations.ZeroSums : Prop :=
  ∀ (w : Nat) (F : Fmt w), IsFormat F → ∀ (m : RoundingMode) (a b c : BitVec w) (n1 n2 n3 : Bool) (m1 m2 m3 : Nat)
      (e1 e2 e3 : Int),
    F.datum a = .fin n1 m1 e1 → F.datum b = .fin n2 m2 e2 →
    let x := ratOf n1 m1 e1
    let y := ratOf n2 m2 e2
    let otherwise : BitVec w := zeroOf (decide (m = .rdn))
    (x + y = 0 → F.add m a b = (if m1 = 0 ∧ m2 = 0 ∧ n1 = n2 then a else otherwise, noFlags)) ∧
    (x - y = 0 → F.sub m a b = (if m1 = 0 ∧ m2 = 0 ∧ n1 ≠ n2 then a else otherwise, noFlags)) ∧
    (m1 = 0 ∨ m2 = 0 → F.mul m a b = (zeroOf (n1 ^^ n2), noFlags)) ∧
    (m1 = 0 → m2 ≠ 0 → F.div m a b = (zeroOf (n1 ^^ n2), noFlags)) ∧
    (F.datum c = .fin n3 m3 e3 → ∀ f ∈ fusedForms F,
      let product := f.2.1 ^^ n1 ^^ n2
      let addend := f.2.2 ^^ n3
      (if f.2.1 then -(x * y) else x * y) + (if f.2.2 then -ratOf n3 m3 e3 else ratOf n3 m3 e3) = 0 →
      f.1 m a b c =
        (if (m1 = 0 ∨ m2 = 0) ∧ m3 = 0 ∧ product = addend then zeroOf product else otherwise, noFlags))

/-- The arithmetic on numbers (R415, R420, R424, R438), in both formats: a result that is not zero is the exact real result
rounded once, the fused forms with no rounding of the product. -/
def Obligations.FiniteArithmeticRounds : Prop :=
  ∀ (w : Nat) (F : Fmt w), IsFormat F → ∀ (m : RoundingMode) (a b c : BitVec w) (x y z : ℚ),
    Denotes F a x → Denotes F b y → Denotes F c z →
    (x + y ≠ 0 → Rounds F m (F.add m a b) (x + y)) ∧ (x - y ≠ 0 → Rounds F m (F.sub m a b) (x - y)) ∧
    (x * y ≠ 0 → Rounds F m (F.mul m a b) (x * y)) ∧ (x ≠ 0 → y ≠ 0 → Rounds F m (F.div m a b) (x / y)) ∧
    (x * y + z ≠ 0 → Rounds F m (F.madd m a b c) (x * y + z)) ∧
    (x * y - z ≠ 0 → Rounds F m (F.msub m a b c) (x * y - z)) ∧
    (-(x * y) + z ≠ 0 → Rounds F m (F.nmsub m a b c) (-(x * y) + z)) ∧
    (-(x * y) - z ≠ 0 → Rounds F m (F.nmadd m a b c) (-(x * y) - z))

/-- Rounding to a format (R406, R415), for S and D and every mode: when the result does not overflow, it has the sign asked
for and denotes a number v; no representable number lies strictly between v and the exact value x on v's side; under
RTZ, RDN and RUP v lies on the side the mode says; under RNE and RMM no representable number is nearer, and of two equally
near the even one or the larger magnitude is taken; NX says whether v is not x. -/
def Obligations.RoundToFormat : Prop :=
  ∀ (w : Nat) (F : Fmt w), IsFormat F → ∀ (m : RoundingMode) (neg : Bool) (num den : Nat), 0 < num → 0 < den →
    let r := F.round m neg num den
    r.2 &&& flagOF = 0#5 →
    let x : ℚ := (if neg then -1 else 1) * num / den
    ∃ v, Denotes F r.1 v ∧ signOf r.1 = neg ∧
      (∀ b u, Denotes F b u → ¬ (v < u ∧ u ≤ x) ∧ ¬ (x ≤ u ∧ u < v)) ∧
      (m = .rtz → |v| ≤ |x|) ∧ (m = .rdn → v ≤ x) ∧ (m = .rup → x ≤ v) ∧
      (Nearest m → ∀ b u, Denotes F b u → |v - x| ≤ |u - x| ∧
        (u ≠ v → |v - x| = |u - x| → (m = .rne → r.1.getLsbD 0 = false) ∧ (m = .rmm → |x| ≤ |v|))) ∧
      (r.2 &&& flagNX = 0#5 ↔ v = x)

/-- Overflow and underflow (R415 to R417), in both formats. With p and emax those of the format: OF is raised exactly when
the magnitude, rounded to p bits with no bound on the exponent, is above the largest finite number, and then with NX and
the result of the table by mode and sign; UF exactly when the result is inexact and the magnitude so rounded is below
2^emin. -/
def Obligations.OverflowAndUnderflow : Prop :=
  ∀ (w : Nat) (F : Fmt w), IsFormat F → ∀ (m : RoundingMode) (neg : Bool) (num den : Nat), 0 < num → 0 < den →
    let r := F.round m neg num den
    let p : Int := if w = 32 then 24 else 53
    let emax : Int := if w = 32 then 127 else 1023
    let x : ℚ := num / den
    let two := fun k : Int => (2 : ℚ) ^ k
    let overflows : Prop :=
      (Nearest m ∧ two (emax + 1) - two (emax - p) ≤ x) ∨
      (AwayFromZero m neg ∧ two (emax + 1) - two (emax + 1 - p) < x) ∨ two (emax + 1) ≤ x
    let tiny : Prop :=
      (Nearest m ∧ x < two (1 - emax) - two (-emax - p)) ∨
      (AwayFromZero m neg ∧ x ≤ two (1 - emax) - two (1 - emax - p)) ∨
      (¬ Nearest m ∧ ¬ AwayFromZero m neg ∧ x < two (1 - emax))
    (r.2 &&& flagOF ≠ 0#5 ↔ overflows) ∧
    (overflows → (Nearest m ∨ AwayFromZero m neg → r = (F.infinity neg, flagOF ||| flagNX)) ∧
      (¬ Nearest m ∧ ¬ AwayFromZero m neg → r = (F.infinity neg - 1#w, flagOF ||| flagNX))) ∧
    (r.2 &&& flagUF ≠ 0#5 ↔ r.2 &&& flagNX ≠ 0#5 ∧ tiny)

/-- FSQRT of a positive number (R426), in both formats: the root correctly rounded, said by squares: under RTZ and RDN the
largest representable number whose square is at most x, under RUP the least whose square is at least x, and under RNE and
RMM the root lies on v's side of the midpoint of v and any other; NX alone, and exactly when the root is not representable. -/
def Obligations.SquareRootRounds : Prop :=
  ∀ (w : Nat) (F : Fmt w), IsFormat F → ∀ (m : RoundingMode) (a : BitVec w) (x : ℚ), Denotes F a x → 0 < x →
    let r := F.sqrt m a
    ∃ v, Denotes F r.1 v ∧ 0 < v ∧ (r.2 = noFlags ∨ r.2 = flagNX) ∧ (r.2 = noFlags ↔ v * v = x) ∧
      ∀ b u, Denotes F b u → 0 < u →
        (m = .rtz ∨ m = .rdn → v * v ≤ x ∧ (u * u ≤ x → u ≤ v)) ∧
        (m = .rup → x ≤ v * v ∧ (x ≤ u * u → v ≤ u)) ∧
        (Nearest m → (u < v → ((u + v) / 2) ^ 2 ≤ x) ∧ (v < u → x ≤ ((u + v) / 2) ^ 2))

/-- FMIN and FMAX (R427), in both formats: two NaNs give the canonical NaN, one NaN the other operand, and else the operand
that is smaller or larger by value, -0 below +0, bit for bit; NV exactly for a signaling NaN. -/
def Obligations.MinMaxSelect : Prop :=
  ∀ (w : Nat) (F : Fmt w), IsFormat F → ∀ a b : BitVec w,
    let lo := (F.min a b).1
    let hi := (F.max a b).1
    let minusZero : BitVec w := 1#w <<< (w - 1)
    (IsNaN F a → IsNaN F b → lo = canonical w ∧ hi = canonical w) ∧
    (IsNaN F a → ¬ IsNaN F b → lo = b ∧ hi = b ∧ (F.min b a).1 = b ∧ (F.max b a).1 = b) ∧
    (DatumLt (F.datum a) (F.datum b) → lo = a ∧ hi = b ∧ (F.min b a).1 = a ∧ (F.max b a).1 = b) ∧
    ((F.min minusZero 0#w).1 = minusZero ∧ (F.min 0#w minusZero).1 = minusZero ∧
      (F.max minusZero 0#w).1 = 0#w ∧ (F.max 0#w minusZero).1 = 0#w) ∧
    (lo = a ∨ lo = b ∨ lo = canonical w) ∧ (¬ IsNaN F a → F.min a a = (a, noFlags) ∧ F.max a a = (a, noFlags)) ∧
    ((IsSNaN F a ∨ IsSNaN F b) → (F.min a b).2 = flagNV ∧ (F.max a b).2 = flagNV) ∧
    (¬ (IsSNaN F a ∨ IsSNaN F b) → (F.min a b).2 = noFlags ∧ (F.max a b).2 = noFlags)

/-- The compares (R428), in both formats: FLT is 1 exactly if neither is a NaN and a < b by value, FLE exactly if neither is a
NaN and not b < a, FEQ exactly if neither is a NaN and neither is less; FLT and FLE raise NV for any NaN, FEQ for a
signaling one. -/
def Obligations.ComparesByValue : Prop :=
  ∀ (w : Nat) (F : Fmt w), IsFormat F → ∀ a b : BitVec w,
    let less := DatumLt (F.datum a) (F.datum b)
    let greater := DatumLt (F.datum b) (F.datum a)
    let nan := IsNaN F a ∨ IsNaN F b
    let signaling := IsSNaN F a ∨ IsSNaN F b
    let is := fun (v : Word) (p : Prop) => (p → v = 1#64) ∧ (¬ p → v = 0#64)
    is (F.flt a b).1 (¬ nan ∧ less) ∧ is (F.fle a b).1 (¬ nan ∧ ¬ greater) ∧
    is (F.feq a b).1 (¬ nan ∧ ¬ less ∧ ¬ greater) ∧
    (nan → (F.flt a b).2 = flagNV ∧ (F.fle a b).2 = flagNV) ∧
    (¬ nan → (F.flt a b).2 = noFlags ∧ (F.fle a b).2 = noFlags) ∧
    (signaling → (F.feq a b).2 = flagNV) ∧ (¬ signaling → (F.feq a b).2 = noFlags)

/-- Float to integer (R432), to each of the four integer types, in both formats: a NaN gives the greatest value and NV; an
infinity the bound on its side and NV; a number is rounded, and gives the bound it passes with NV if it is out of range, and
else itself with NX exactly if it was not an integer. The 32-bit types are sign-extended from 32 bits. -/
def Obligations.FloatToIntSaturates : Prop :=
  ∀ (w : Nat) (F : Fmt w), IsFormat F → ∀ (m : RoundingMode) (b : BitVec w),
    ∀ t ∈ [(IntType.w, -(2 ^ 31 : Int), (2 ^ 31 - 1 : Int), sextW), (.wu, 0, 2 ^ 32 - 1, sextW),
      (.l, -(2 ^ 63), 2 ^ 63 - 1, BitVec.ofInt 64), (.lu, 0, 2 ^ 64 - 1, BitVec.ofInt 64)],
    let lo := t.2.1
    let hi := t.2.2.1
    let word := t.2.2.2
    let r := F.toInt t.1 m b
    (∀ q, F.datum b = .nan q → r = (word hi, flagNV)) ∧
    (F.datum b = .inf false → r = (word hi, flagNV)) ∧ (F.datum b = .inf true → r = (word lo, flagNV)) ∧
    (∀ x, Denotes F b x → ∃ n : Int,
      |(n : ℚ) - x| < 1 ∧ (m = .rtz → |(n : ℚ)| ≤ |x|) ∧ (m = .rdn → (n : ℚ) ≤ x) ∧ (m = .rup → x ≤ n) ∧
      (Nearest m → 2 * |(n : ℚ) - x| ≤ 1) ∧
      (2 * |(n : ℚ) - x| = 1 → (m = .rne → n % 2 = 0) ∧ (m = .rmm → |x| ≤ |(n : ℚ)|)) ∧
      (hi < n → r = (word hi, flagNV)) ∧ (n < lo → r = (word lo, flagNV)) ∧
      (lo ≤ n → n ≤ hi → r = (word n, if (n : ℚ) = x then noFlags else flagNX)))

/-- Integer to float (R433), from each of the four integer types, in both formats: 0 gives +0 with no flag, and any other
integer is rounded once. -/
def Obligations.IntToFloatRounds : Prop :=
  ∀ (w : Nat) (F : Fmt w), IsFormat F → ∀ (m : RoundingMode) (v : Word),
    ∀ t ∈ [(IntType.w, sW v), (.wu, (uW v : Int)), (.l, v.toInt), (.lu, (v.toNat : Int))],
    (t.2 = 0 → F.ofInt t.1 m v = (0#w, noFlags)) ∧ (t.2 ≠ 0 → Rounds F m (F.ofInt t.1 m v) t.2)

/-- The conversions whose result needs more than one rounding rule (R433, R434, R516, R517, R527, R528), in every mode.
FCVT.D.W and FCVT.D.WU denote the integer, with no flag. FCVT.D.S keeps a number's value, the sign of a zero and infinities,
with no flag. FCVT.S.D rounds a number that is not zero once, and keeps zeros and infinities with no flag. Both make a NaN
the canonical one, with NV exactly if it is signaling. -/
def Obligations.ConversionValues : Prop :=
  ∀ (m : RoundingMode) (v : Word) (b : BitVec 32) (d : BitVec 64),
    let wide := fmtD.ofFloat fmtS m b
    let narrow := fmtS.ofFloat fmtD m d
    (Denotes fmtD (fmtD.ofInt .w m v).1 (sW v) ∧ (fmtD.ofInt .w m v).2 = noFlags) ∧
    (Denotes fmtD (fmtD.ofInt .wu m v).1 (uW v) ∧ (fmtD.ofInt .wu m v).2 = noFlags) ∧
    (∀ x, Denotes fmtS b x → Denotes fmtD wide.1 x ∧ wide.2 = noFlags ∧ signOf wide.1 = signOf b) ∧
    (∀ neg, fmtS.datum b = .inf neg → wide = (fmtD.infinity neg, noFlags)) ∧
    (IsNaN fmtS b → GivesNaN wide (IsSNaN fmtS b)) ∧
    (∀ x, Denotes fmtD d x → x ≠ 0 → Rounds fmtS m narrow x) ∧
    (∀ neg e, fmtD.datum d = .fin neg 0 e → narrow = (zeroOf neg, noFlags)) ∧
    (∀ neg, fmtD.datum d = .inf neg → narrow = (fmtS.infinity neg, noFlags)) ∧
    (IsNaN fmtD d → GivesNaN narrow (IsSNaN fmtD d))

/-- Flags are sticky and frm is the program's (R63, R64, R430): an instruction that is no CSR instruction clears no flag and
leaves frm alone, in every state. -/
def Obligations.FlagsAreSticky : Prop :=
  ∀ (i : Instr) (s t : State), exec i s = .next t →
    (∀ rd c r u, i ≠ .csrrw rd c r ∧ i ≠ .csrrs rd c r ∧ i ≠ .csrrc rd c r ∧ i ≠ .csrrwi rd c u ∧
      i ≠ .csrrsi rd c u ∧ i ≠ .csrrci rd c u) →
    frmOf t.fcsr = frmOf s.fcsr ∧ fflagsOf s.fcsr &&& fflagsOf t.fcsr = fflagsOf s.fcsr

/-! ## Compressed instructions (49_compressed.md) -/

/-- The compressed integer instructions (R705, R712 to R726, R730, R735, R738): the expansion's result, at pc + 2; and the
compressed jumps and branches (R727 to R729, R734, R737): C.JALR links pc + 2, and a branch not taken goes to pc + 2. -/
def Obligations.CompressedAluAndJumps : Prop :=
  (∀ (s : State) (rd rs2 : XReg) (imm k : BitVec 6) (z z16 : BitVec 10) (u : BitVec 18),
      let a := s.rx rd
      let b := s.rx rs2
      let i := BitVec.ofInt 64 imm.toInt
      let at2 := fun c r v => SetsX c s (s.pc + 2#64) r v
      at2 (.cAddi4spn rd z) rd (s.rx 2#5 + BitVec.ofNat 64 z.toNat) ∧
      OnlyPc (.cNop imm) s (s.pc + 2#64) ∧
      at2 (.cAddi rd imm) rd (a + i) ∧ at2 (.cAddiw rd imm) rd (sextW (a.toInt + imm.toInt)) ∧
      at2 (.cLi rd imm) rd i ∧ at2 (.cAddi16sp z16) 2#5 (s.rx 2#5 + BitVec.ofInt 64 z16.toInt) ∧
      at2 (.cLui rd u) rd (BitVec.ofInt 64 u.toInt) ∧
      at2 (.cSrli rd k) rd (BitVec.ofNat 64 (a.toNat / 2 ^ k.toNat)) ∧
      at2 (.cSrai rd k) rd (BitVec.ofInt 64 (a.toInt / 2 ^ k.toNat)) ∧
      at2 (.cSlli rd k) rd (BitVec.ofNat 64 (a.toNat * 2 ^ k.toNat)) ∧
      at2 (.cAndi rd imm) rd (a &&& i) ∧ at2 (.cSub rd rs2) rd (BitVec.ofInt 64 (a.toInt - b.toInt)) ∧
      at2 (.cXor rd rs2) rd (a ^^^ b) ∧ at2 (.cOr rd rs2) rd (a ||| b) ∧ at2 (.cAnd rd rs2) rd (a &&& b) ∧
      at2 (.cSubw rd rs2) rd (sextW (a.toInt - b.toInt)) ∧ at2 (.cAddw rd rs2) rd (sextW (a.toInt + b.toInt)) ∧
      at2 (.cMv rd rs2) rd b ∧ at2 (.cAdd rd rs2) rd (BitVec.ofInt 64 (a.toInt + b.toInt))) ∧
  (∀ (s : State) (rs1 : XReg) (j : BitVec 12) (b : BitVec 9),
      let a := s.rx rs1
      let target := BitVec.ofNat 64 (a.toNat / 2 * 2)
      OnlyPc (.cJ j) s (s.pc + BitVec.ofInt 64 j.toInt) ∧
      OnlyPc (.cBeqz rs1 b) s (if a.toNat = 0 then s.pc + BitVec.ofInt 64 b.toInt else s.pc + 2#64) ∧
      OnlyPc (.cBnez rs1 b) s (if a.toNat ≠ 0 then s.pc + BitVec.ofInt 64 b.toInt else s.pc + 2#64) ∧
      OnlyPc (.cJr rs1) s target ∧ SetsX (.cJalr rs1) s target 1#5 (s.pc + 2#64))

/-- The compressed loads and stores (R706 to R711, R731 to R733, R739 to R741), with a register base and with sp: the
expansion's access at base + the unsigned offset, at pc + 2. -/
def Obligations.CompressedMemory : Prop :=
  ∀ (s : State) (rd rs1 rs2 : XReg) (f : FReg) (u4 : BitVec 7) (u8 v4 : BitVec 8) (v8 : BitVec 9),
    Memory.wf s.mem = true →
    let off := fun (r : XReg) (u : Nat) => s.rx r + BitVec.ofNat 64 u
    let ok := fun (a : Word) (n : Nat) (k : AccessKind) => PlainAligned s a n ∧ MappedAll s a n k
    let word := fun a : Word => BitVec.ofInt 64 (BitVec.ofNat 32 (leNat s.mem a 4)).toInt
    let dword := fun a : Word => BitVec.ofNat 64 (leNat s.mem a 8)
    let p := s.pc + 2#64
    (ok (off rs1 u4.toNat) 4 .read → SetsX (.cLw rd rs1 u4) s p rd (word (off rs1 u4.toNat))) ∧
    (ok (off rs1 u8.toNat) 8 .read → SetsX (.cLd rd rs1 u8) s p rd (dword (off rs1 u8.toNat)) ∧
      SetsF (.cFld f rs1 u8) s p f (dword (off rs1 u8.toNat))) ∧
    (ok (off rs1 u4.toNat) 4 .write → Stores (.cSw rs2 rs1 u4) s p (off rs1 u4.toNat) 4 (s.rx rs2)) ∧
    (ok (off rs1 u8.toNat) 8 .write → Stores (.cSd rs2 rs1 u8) s p (off rs1 u8.toNat) 8 (s.rx rs2) ∧
      Stores (.cFsd f rs1 u8) s p (off rs1 u8.toNat) 8 (s.rf f)) ∧
    (ok (off 2#5 v4.toNat) 4 .read → SetsX (.cLwsp rd v4) s p rd (word (off 2#5 v4.toNat))) ∧
    (ok (off 2#5 v8.toNat) 8 .read → SetsX (.cLdsp rd v8) s p rd (dword (off 2#5 v8.toNat)) ∧
      SetsF (.cFldsp f v8) s p f (dword (off 2#5 v8.toNat))) ∧
    (ok (off 2#5 v4.toNat) 4 .write → Stores (.cSwsp rs2 v4) s p (off 2#5 v4.toNat) 4 (s.rx rs2)) ∧
    (ok (off 2#5 v8.toNat) 8 .write → Stores (.cSdsp rs2 v8) s p (off 2#5 v8.toNat) 8 (s.rx rs2) ∧
      Stores (.cFsdsp f v8) s p (off 2#5 v8.toNat) 8 (s.rf f))

/-- A compressed instruction is its expansion with len = 2 (R700, R10): the decoder's record of it is the expansion's but for
len; and when the expansion falls through or stops, the compressed one answers the same state with pc + 2 in place of
pc + 4, or the same stop; the five control transfers, whose pc and link differ, are those of CompressedAluAndJumps. -/
def Obligations.CompressedIsExpansion : Prop :=
  ∀ (i : Instr) (s : State), i.wf = true → i.len = 2 →
    i.decodedOp = { (expand i).decodedOp with len := 2 } ∧ (expand i).decodedOp.len = 4 ∧
    ((∀ j r b, i ≠ .cJ j ∧ i ≠ .cJr r ∧ i ≠ .cJalr r ∧ i ≠ .cBeqz r b ∧ i ≠ .cBnez r b) →
    ∃ t, exec (expand i) s = .next t ∧ (expand i).len = 4 ∧
      ((t.status = s.status ∧ t.pc = s.pc + 4#64 ∧ exec i s = .next (t.withPc (s.pc + 2#64))) ∨
       ((∃ e, StoppedAs s t e) ∧ exec i s = .next t)))
end

