-- ==== Sys2Proof/Laws/Encode.lean ====
section
/-! SUPPORT. What each field of an encoded word reads (one lemma for each field of each format), and that a scattered
immediate comes back whole. -/

namespace Sys2Proof

set_option linter.unusedSimpArgs false

@[simp] theorem opcode_encR (funct7 : BitVec 7) (rs2 : BitVec 5) (rs1 : BitVec 5) (funct3 : BitVec 3) (rd : BitVec 5) (op : BitVec 7) :
    BitVec.extractLsb' 0 7 (encR funct7 rs2 rs1 funct3 rd op) = op := by
  simp (disch := decide) only [encR, BitVec.extractLsb'_append_eq_of_le,
    BitVec.extractLsb'_append_eq_of_add_le, BitVec.extractLsb'_eq_self, Nat.reduceSub]

@[simp] theorem funct7Field_encR (funct7 : BitVec 7) (rs2 : BitVec 5) (rs1 : BitVec 5) (funct3 : BitVec 3) (rd : BitVec 5) (op : BitVec 7) :
    funct7Field (encR funct7 rs2 rs1 funct3 rd op) = funct7 := by
  simp (disch := decide) only [encR, funct7Field, BitVec.extractLsb'_append_eq_of_le,
    BitVec.extractLsb'_append_eq_of_add_le, BitVec.extractLsb'_eq_self, Nat.reduceSub]

@[simp] theorem rs2Field_encR (funct7 : BitVec 7) (rs2 : BitVec 5) (rs1 : BitVec 5) (funct3 : BitVec 3) (rd : BitVec 5) (op : BitVec 7) :
    rs2Field (encR funct7 rs2 rs1 funct3 rd op) = rs2 := by
  simp (disch := decide) only [encR, rs2Field, BitVec.extractLsb'_append_eq_of_le,
    BitVec.extractLsb'_append_eq_of_add_le, BitVec.extractLsb'_eq_self, Nat.reduceSub]

@[simp] theorem rs1Field_encR (funct7 : BitVec 7) (rs2 : BitVec 5) (rs1 : BitVec 5) (funct3 : BitVec 3) (rd : BitVec 5) (op : BitVec 7) :
    rs1Field (encR funct7 rs2 rs1 funct3 rd op) = rs1 := by
  simp (disch := decide) only [encR, rs1Field, BitVec.extractLsb'_append_eq_of_le,
    BitVec.extractLsb'_append_eq_of_add_le, BitVec.extractLsb'_eq_self, Nat.reduceSub]

@[simp] theorem funct3Field_encR (funct7 : BitVec 7) (rs2 : BitVec 5) (rs1 : BitVec 5) (funct3 : BitVec 3) (rd : BitVec 5) (op : BitVec 7) :
    funct3Field (encR funct7 rs2 rs1 funct3 rd op) = funct3 := by
  simp (disch := decide) only [encR, funct3Field, BitVec.extractLsb'_append_eq_of_le,
    BitVec.extractLsb'_append_eq_of_add_le, BitVec.extractLsb'_eq_self, Nat.reduceSub]

@[simp] theorem rdField_encR (funct7 : BitVec 7) (rs2 : BitVec 5) (rs1 : BitVec 5) (funct3 : BitVec 3) (rd : BitVec 5) (op : BitVec 7) :
    rdField (encR funct7 rs2 rs1 funct3 rd op) = rd := by
  simp (disch := decide) only [encR, rdField, BitVec.extractLsb'_append_eq_of_le,
    BitVec.extractLsb'_append_eq_of_add_le, BitVec.extractLsb'_eq_self, Nat.reduceSub]

@[simp] theorem opcode_encR4 (rs3 : BitVec 5) (fmt : BitVec 2) (rs2 : BitVec 5) (rs1 : BitVec 5) (rm : BitVec 3) (rd : BitVec 5) (op : BitVec 7) :
    BitVec.extractLsb' 0 7 (encR4 rs3 fmt rs2 rs1 rm rd op) = op := by
  simp (disch := decide) only [encR4, BitVec.extractLsb'_append_eq_of_le,
    BitVec.extractLsb'_append_eq_of_add_le, BitVec.extractLsb'_eq_self, Nat.reduceSub]

@[simp] theorem rs3Field_encR4 (rs3 : BitVec 5) (fmt : BitVec 2) (rs2 : BitVec 5) (rs1 : BitVec 5) (rm : BitVec 3) (rd : BitVec 5) (op : BitVec 7) :
    rs3Field (encR4 rs3 fmt rs2 rs1 rm rd op) = rs3 := by
  simp (disch := decide) only [encR4, rs3Field, BitVec.extractLsb'_append_eq_of_le,
    BitVec.extractLsb'_append_eq_of_add_le, BitVec.extractLsb'_eq_self, Nat.reduceSub]

@[simp] theorem rs2Field_encR4 (rs3 : BitVec 5) (fmt : BitVec 2) (rs2 : BitVec 5) (rs1 : BitVec 5) (rm : BitVec 3) (rd : BitVec 5) (op : BitVec 7) :
    rs2Field (encR4 rs3 fmt rs2 rs1 rm rd op) = rs2 := by
  simp (disch := decide) only [encR4, rs2Field, BitVec.extractLsb'_append_eq_of_le,
    BitVec.extractLsb'_append_eq_of_add_le, BitVec.extractLsb'_eq_self, Nat.reduceSub]

@[simp] theorem rs1Field_encR4 (rs3 : BitVec 5) (fmt : BitVec 2) (rs2 : BitVec 5) (rs1 : BitVec 5) (rm : BitVec 3) (rd : BitVec 5) (op : BitVec 7) :
    rs1Field (encR4 rs3 fmt rs2 rs1 rm rd op) = rs1 := by
  simp (disch := decide) only [encR4, rs1Field, BitVec.extractLsb'_append_eq_of_le,
    BitVec.extractLsb'_append_eq_of_add_le, BitVec.extractLsb'_eq_self, Nat.reduceSub]

@[simp] theorem funct3Field_encR4 (rs3 : BitVec 5) (fmt : BitVec 2) (rs2 : BitVec 5) (rs1 : BitVec 5) (rm : BitVec 3) (rd : BitVec 5) (op : BitVec 7) :
    funct3Field (encR4 rs3 fmt rs2 rs1 rm rd op) = rm := by
  simp (disch := decide) only [encR4, funct3Field, BitVec.extractLsb'_append_eq_of_le,
    BitVec.extractLsb'_append_eq_of_add_le, BitVec.extractLsb'_eq_self, Nat.reduceSub]

@[simp] theorem rdField_encR4 (rs3 : BitVec 5) (fmt : BitVec 2) (rs2 : BitVec 5) (rs1 : BitVec 5) (rm : BitVec 3) (rd : BitVec 5) (op : BitVec 7) :
    rdField (encR4 rs3 fmt rs2 rs1 rm rd op) = rd := by
  simp (disch := decide) only [encR4, rdField, BitVec.extractLsb'_append_eq_of_le,
    BitVec.extractLsb'_append_eq_of_add_le, BitVec.extractLsb'_eq_self, Nat.reduceSub]

@[simp] theorem fmt_encR4 (rs3 : BitVec 5) (fmt : BitVec 2) (rs2 : BitVec 5) (rs1 : BitVec 5) (rm : BitVec 3) (rd : BitVec 5) (op : BitVec 7) :
    BitVec.extractLsb' 25 2 (encR4 rs3 fmt rs2 rs1 rm rd op) = fmt := by
  simp (disch := decide) only [encR4, BitVec.extractLsb'_append_eq_of_le,
    BitVec.extractLsb'_append_eq_of_add_le, BitVec.extractLsb'_eq_self, Nat.reduceSub]

@[simp] theorem opcode_encI (imm : BitVec 12) (rs1 : BitVec 5) (funct3 : BitVec 3) (rd : BitVec 5) (op : BitVec 7) :
    BitVec.extractLsb' 0 7 (encI imm rs1 funct3 rd op) = op := by
  simp (disch := decide) only [encI, BitVec.extractLsb'_append_eq_of_le,
    BitVec.extractLsb'_append_eq_of_add_le, BitVec.extractLsb'_eq_self, Nat.reduceSub]

@[simp] theorem rs1Field_encI (imm : BitVec 12) (rs1 : BitVec 5) (funct3 : BitVec 3) (rd : BitVec 5) (op : BitVec 7) :
    rs1Field (encI imm rs1 funct3 rd op) = rs1 := by
  simp (disch := decide) only [encI, rs1Field, BitVec.extractLsb'_append_eq_of_le,
    BitVec.extractLsb'_append_eq_of_add_le, BitVec.extractLsb'_eq_self, Nat.reduceSub]

@[simp] theorem funct3Field_encI (imm : BitVec 12) (rs1 : BitVec 5) (funct3 : BitVec 3) (rd : BitVec 5) (op : BitVec 7) :
    funct3Field (encI imm rs1 funct3 rd op) = funct3 := by
  simp (disch := decide) only [encI, funct3Field, BitVec.extractLsb'_append_eq_of_le,
    BitVec.extractLsb'_append_eq_of_add_le, BitVec.extractLsb'_eq_self, Nat.reduceSub]

@[simp] theorem rdField_encI (imm : BitVec 12) (rs1 : BitVec 5) (funct3 : BitVec 3) (rd : BitVec 5) (op : BitVec 7) :
    rdField (encI imm rs1 funct3 rd op) = rd := by
  simp (disch := decide) only [encI, rdField, BitVec.extractLsb'_append_eq_of_le,
    BitVec.extractLsb'_append_eq_of_add_le, BitVec.extractLsb'_eq_self, Nat.reduceSub]

@[simp] theorem immI_encI (imm : BitVec 12) (rs1 : BitVec 5) (funct3 : BitVec 3) (rd : BitVec 5) (op : BitVec 7) :
    immI (encI imm rs1 funct3 rd op) = imm := by
  simp (disch := decide) only [encI, immI, BitVec.extractLsb'_append_eq_of_le,
    BitVec.extractLsb'_append_eq_of_add_le, BitVec.extractLsb'_eq_self, Nat.reduceSub]

@[simp] theorem opcode_encShift64 (funct6 : BitVec 6) (shamt : BitVec 6) (rs1 : BitVec 5) (funct3 : BitVec 3) (rd : BitVec 5) :
    BitVec.extractLsb' 0 7 (encShift64 funct6 shamt rs1 funct3 rd) = 0x13#7 := by
  simp (disch := decide) only [encShift64, BitVec.extractLsb'_append_eq_of_le,
    BitVec.extractLsb'_append_eq_of_add_le, BitVec.extractLsb'_eq_self, Nat.reduceSub]

@[simp] theorem rs1Field_encShift64 (funct6 : BitVec 6) (shamt : BitVec 6) (rs1 : BitVec 5) (funct3 : BitVec 3) (rd : BitVec 5) :
    rs1Field (encShift64 funct6 shamt rs1 funct3 rd) = rs1 := by
  simp (disch := decide) only [encShift64, rs1Field, BitVec.extractLsb'_append_eq_of_le,
    BitVec.extractLsb'_append_eq_of_add_le, BitVec.extractLsb'_eq_self, Nat.reduceSub]

@[simp] theorem funct3Field_encShift64 (funct6 : BitVec 6) (shamt : BitVec 6) (rs1 : BitVec 5) (funct3 : BitVec 3) (rd : BitVec 5) :
    funct3Field (encShift64 funct6 shamt rs1 funct3 rd) = funct3 := by
  simp (disch := decide) only [encShift64, funct3Field, BitVec.extractLsb'_append_eq_of_le,
    BitVec.extractLsb'_append_eq_of_add_le, BitVec.extractLsb'_eq_self, Nat.reduceSub]

@[simp] theorem rdField_encShift64 (funct6 : BitVec 6) (shamt : BitVec 6) (rs1 : BitVec 5) (funct3 : BitVec 3) (rd : BitVec 5) :
    rdField (encShift64 funct6 shamt rs1 funct3 rd) = rd := by
  simp (disch := decide) only [encShift64, rdField, BitVec.extractLsb'_append_eq_of_le,
    BitVec.extractLsb'_append_eq_of_add_le, BitVec.extractLsb'_eq_self, Nat.reduceSub]

@[simp] theorem funct6_encShift64 (funct6 : BitVec 6) (shamt : BitVec 6) (rs1 : BitVec 5) (funct3 : BitVec 3) (rd : BitVec 5) :
    BitVec.extractLsb' 26 6 (encShift64 funct6 shamt rs1 funct3 rd) = funct6 := by
  simp (disch := decide) only [encShift64, BitVec.extractLsb'_append_eq_of_le,
    BitVec.extractLsb'_append_eq_of_add_le, BitVec.extractLsb'_eq_self, Nat.reduceSub]

@[simp] theorem shamt_encShift64 (funct6 : BitVec 6) (shamt : BitVec 6) (rs1 : BitVec 5) (funct3 : BitVec 3) (rd : BitVec 5) :
    BitVec.extractLsb' 20 6 (encShift64 funct6 shamt rs1 funct3 rd) = shamt := by
  simp (disch := decide) only [encShift64, BitVec.extractLsb'_append_eq_of_le,
    BitVec.extractLsb'_append_eq_of_add_le, BitVec.extractLsb'_eq_self, Nat.reduceSub]

@[simp] theorem opcode_encS (imm : BitVec 12) (rs2 : BitVec 5) (rs1 : BitVec 5) (funct3 : BitVec 3) (op : BitVec 7) :
    BitVec.extractLsb' 0 7 (encS imm rs2 rs1 funct3 op) = op := by
  simp (disch := decide) only [encS, BitVec.extractLsb'_append_eq_of_le,
    BitVec.extractLsb'_append_eq_of_add_le, BitVec.extractLsb'_eq_self, Nat.reduceSub]

@[simp] theorem rs2Field_encS (imm : BitVec 12) (rs2 : BitVec 5) (rs1 : BitVec 5) (funct3 : BitVec 3) (op : BitVec 7) :
    rs2Field (encS imm rs2 rs1 funct3 op) = rs2 := by
  simp (disch := decide) only [encS, rs2Field, BitVec.extractLsb'_append_eq_of_le,
    BitVec.extractLsb'_append_eq_of_add_le, BitVec.extractLsb'_eq_self, Nat.reduceSub]

@[simp] theorem rs1Field_encS (imm : BitVec 12) (rs2 : BitVec 5) (rs1 : BitVec 5) (funct3 : BitVec 3) (op : BitVec 7) :
    rs1Field (encS imm rs2 rs1 funct3 op) = rs1 := by
  simp (disch := decide) only [encS, rs1Field, BitVec.extractLsb'_append_eq_of_le,
    BitVec.extractLsb'_append_eq_of_add_le, BitVec.extractLsb'_eq_self, Nat.reduceSub]

@[simp] theorem funct3Field_encS (imm : BitVec 12) (rs2 : BitVec 5) (rs1 : BitVec 5) (funct3 : BitVec 3) (op : BitVec 7) :
    funct3Field (encS imm rs2 rs1 funct3 op) = funct3 := by
  simp (disch := decide) only [encS, funct3Field, BitVec.extractLsb'_append_eq_of_le,
    BitVec.extractLsb'_append_eq_of_add_le, BitVec.extractLsb'_eq_self, Nat.reduceSub]

@[simp] theorem opcode_encB (imm : BitVec 13) (rs2 : BitVec 5) (rs1 : BitVec 5) (funct3 : BitVec 3) :
    BitVec.extractLsb' 0 7 (encB imm rs2 rs1 funct3) = 0x63#7 := by
  simp (disch := decide) only [encB, BitVec.extractLsb'_append_eq_of_le,
    BitVec.extractLsb'_append_eq_of_add_le, BitVec.extractLsb'_eq_self, Nat.reduceSub]

@[simp] theorem rs2Field_encB (imm : BitVec 13) (rs2 : BitVec 5) (rs1 : BitVec 5) (funct3 : BitVec 3) :
    rs2Field (encB imm rs2 rs1 funct3) = rs2 := by
  simp (disch := decide) only [encB, rs2Field, BitVec.extractLsb'_append_eq_of_le,
    BitVec.extractLsb'_append_eq_of_add_le, BitVec.extractLsb'_eq_self, Nat.reduceSub]

@[simp] theorem rs1Field_encB (imm : BitVec 13) (rs2 : BitVec 5) (rs1 : BitVec 5) (funct3 : BitVec 3) :
    rs1Field (encB imm rs2 rs1 funct3) = rs1 := by
  simp (disch := decide) only [encB, rs1Field, BitVec.extractLsb'_append_eq_of_le,
    BitVec.extractLsb'_append_eq_of_add_le, BitVec.extractLsb'_eq_self, Nat.reduceSub]

@[simp] theorem funct3Field_encB (imm : BitVec 13) (rs2 : BitVec 5) (rs1 : BitVec 5) (funct3 : BitVec 3) :
    funct3Field (encB imm rs2 rs1 funct3) = funct3 := by
  simp (disch := decide) only [encB, funct3Field, BitVec.extractLsb'_append_eq_of_le,
    BitVec.extractLsb'_append_eq_of_add_le, BitVec.extractLsb'_eq_self, Nat.reduceSub]

@[simp] theorem opcode_encU (imm : BitVec 20) (rd : BitVec 5) (op : BitVec 7) :
    BitVec.extractLsb' 0 7 (encU imm rd op) = op := by
  simp (disch := decide) only [encU, BitVec.extractLsb'_append_eq_of_le,
    BitVec.extractLsb'_append_eq_of_add_le, BitVec.extractLsb'_eq_self, Nat.reduceSub]

@[simp] theorem rdField_encU (imm : BitVec 20) (rd : BitVec 5) (op : BitVec 7) : rdField (encU imm rd op) = rd := by
  simp (disch := decide) only [encU, rdField, BitVec.extractLsb'_append_eq_of_le,
    BitVec.extractLsb'_append_eq_of_add_le, BitVec.extractLsb'_eq_self, Nat.reduceSub]

@[simp] theorem immU_encU (imm : BitVec 20) (rd : BitVec 5) (op : BitVec 7) : immU (encU imm rd op) = imm := by
  simp (disch := decide) only [encU, immU, BitVec.extractLsb'_append_eq_of_le,
    BitVec.extractLsb'_append_eq_of_add_le, BitVec.extractLsb'_eq_self, Nat.reduceSub]

@[simp] theorem opcode_encJ (imm : BitVec 21) (rd : BitVec 5) : BitVec.extractLsb' 0 7 (encJ imm rd) = 0x6F#7 := by
  simp (disch := decide) only [encJ, BitVec.extractLsb'_append_eq_of_le,
    BitVec.extractLsb'_append_eq_of_add_le, BitVec.extractLsb'_eq_self, Nat.reduceSub]

@[simp] theorem rdField_encJ (imm : BitVec 21) (rd : BitVec 5) : rdField (encJ imm rd) = rd := by
  simp (disch := decide) only [encJ, rdField, BitVec.extractLsb'_append_eq_of_le,
    BitVec.extractLsb'_append_eq_of_add_le, BitVec.extractLsb'_eq_self, Nat.reduceSub]

@[simp] theorem opcode_encFence (fm : BitVec 4) (pred : BitVec 4) (succ : BitVec 4) (rs1 : BitVec 5) (rd : BitVec 5) :
    BitVec.extractLsb' 0 7 (encFence fm pred succ rs1 rd) = 0x0F#7 := by
  simp (disch := decide) only [encFence, BitVec.extractLsb'_append_eq_of_le,
    BitVec.extractLsb'_append_eq_of_add_le, BitVec.extractLsb'_eq_self, Nat.reduceSub]

@[simp] theorem rs1Field_encFence (fm : BitVec 4) (pred : BitVec 4) (succ : BitVec 4) (rs1 : BitVec 5) (rd : BitVec 5) :
    rs1Field (encFence fm pred succ rs1 rd) = rs1 := by
  simp (disch := decide) only [encFence, rs1Field, BitVec.extractLsb'_append_eq_of_le,
    BitVec.extractLsb'_append_eq_of_add_le, BitVec.extractLsb'_eq_self, Nat.reduceSub]

@[simp] theorem rdField_encFence (fm : BitVec 4) (pred : BitVec 4) (succ : BitVec 4) (rs1 : BitVec 5) (rd : BitVec 5) :
    rdField (encFence fm pred succ rs1 rd) = rd := by
  simp (disch := decide) only [encFence, rdField, BitVec.extractLsb'_append_eq_of_le,
    BitVec.extractLsb'_append_eq_of_add_le, BitVec.extractLsb'_eq_self, Nat.reduceSub]

@[simp] theorem fm_encFence (fm : BitVec 4) (pred : BitVec 4) (succ : BitVec 4) (rs1 : BitVec 5) (rd : BitVec 5) :
    BitVec.extractLsb' 28 4 (encFence fm pred succ rs1 rd) = fm := by
  simp (disch := decide) only [encFence, BitVec.extractLsb'_append_eq_of_le,
    BitVec.extractLsb'_append_eq_of_add_le, BitVec.extractLsb'_eq_self, Nat.reduceSub]

@[simp] theorem pred_encFence (fm : BitVec 4) (pred : BitVec 4) (succ : BitVec 4) (rs1 : BitVec 5) (rd : BitVec 5) :
    BitVec.extractLsb' 24 4 (encFence fm pred succ rs1 rd) = pred := by
  simp (disch := decide) only [encFence, BitVec.extractLsb'_append_eq_of_le,
    BitVec.extractLsb'_append_eq_of_add_le, BitVec.extractLsb'_eq_self, Nat.reduceSub]

@[simp] theorem succ_encFence (fm : BitVec 4) (pred : BitVec 4) (succ : BitVec 4) (rs1 : BitVec 5) (rd : BitVec 5) :
    BitVec.extractLsb' 20 4 (encFence fm pred succ rs1 rd) = succ := by
  simp (disch := decide) only [encFence, BitVec.extractLsb'_append_eq_of_le,
    BitVec.extractLsb'_append_eq_of_add_le, BitVec.extractLsb'_eq_self, Nat.reduceSub]

@[simp] theorem funct3Field_encFence (fm : BitVec 4) (pred : BitVec 4) (succ : BitVec 4) (rs1 : BitVec 5) (rd : BitVec 5) :
    funct3Field (encFence fm pred succ rs1 rd) = 0b000#3 := by
  simp (disch := decide) only [encFence, funct3Field, BitVec.extractLsb'_append_eq_of_le,
    BitVec.extractLsb'_append_eq_of_add_le, BitVec.extractLsb'_eq_self, Nat.reduceSub]

@[simp] theorem opcode_encAmo (funct5 : BitVec 5) (aq : Bool) (rl : Bool) (rs2 : BitVec 5) (rs1 : BitVec 5) (funct3 : BitVec 3) (rd : BitVec 5) :
    BitVec.extractLsb' 0 7 (encAmo funct5 aq rl rs2 rs1 funct3 rd) = 0x2F#7 := by
  simp (disch := decide) only [encAmo, BitVec.extractLsb'_append_eq_of_le,
    BitVec.extractLsb'_append_eq_of_add_le, BitVec.extractLsb'_eq_self, Nat.reduceSub]

@[simp] theorem funct3Field_encAmo (funct5 : BitVec 5) (aq : Bool) (rl : Bool) (rs2 : BitVec 5) (rs1 : BitVec 5) (funct3 : BitVec 3) (rd : BitVec 5) :
    funct3Field (encAmo funct5 aq rl rs2 rs1 funct3 rd) = funct3 := by
  simp (disch := decide) only [encAmo, funct3Field, BitVec.extractLsb'_append_eq_of_le,
    BitVec.extractLsb'_append_eq_of_add_le, BitVec.extractLsb'_eq_self, Nat.reduceSub]

@[simp] theorem rdField_encAmo (funct5 : BitVec 5) (aq : Bool) (rl : Bool) (rs2 : BitVec 5) (rs1 : BitVec 5) (funct3 : BitVec 3) (rd : BitVec 5) :
    rdField (encAmo funct5 aq rl rs2 rs1 funct3 rd) = rd := by
  simp (disch := decide) only [encAmo, rdField, BitVec.extractLsb'_append_eq_of_le,
    BitVec.extractLsb'_append_eq_of_add_le, BitVec.extractLsb'_eq_self, Nat.reduceSub]

@[simp] theorem rs1Field_encAmo (funct5 : BitVec 5) (aq : Bool) (rl : Bool) (rs2 : BitVec 5) (rs1 : BitVec 5) (funct3 : BitVec 3) (rd : BitVec 5) :
    rs1Field (encAmo funct5 aq rl rs2 rs1 funct3 rd) = rs1 := by
  simp (disch := decide) only [encAmo, rs1Field, BitVec.extractLsb'_append_eq_of_le,
    BitVec.extractLsb'_append_eq_of_add_le, BitVec.extractLsb'_eq_self, Nat.reduceSub]

@[simp] theorem rs2Field_encAmo (funct5 : BitVec 5) (aq : Bool) (rl : Bool) (rs2 : BitVec 5) (rs1 : BitVec 5) (funct3 : BitVec 3) (rd : BitVec 5) :
    rs2Field (encAmo funct5 aq rl rs2 rs1 funct3 rd) = rs2 := by
  simp (disch := decide) only [encAmo, rs2Field, BitVec.extractLsb'_append_eq_of_le,
    BitVec.extractLsb'_append_eq_of_add_le, BitVec.extractLsb'_eq_self, Nat.reduceSub]

@[simp] theorem funct5_encAmo (funct5 : BitVec 5) (aq : Bool) (rl : Bool) (rs2 : BitVec 5) (rs1 : BitVec 5) (funct3 : BitVec 3) (rd : BitVec 5) :
    BitVec.extractLsb' 27 5 (encAmo funct5 aq rl rs2 rs1 funct3 rd) = funct5 := by
  simp (disch := decide) only [encAmo, BitVec.extractLsb'_append_eq_of_le,
    BitVec.extractLsb'_append_eq_of_add_le, BitVec.extractLsb'_eq_self, Nat.reduceSub]

/-- A scattered S-immediate comes back whole (R162). -/
@[simp] theorem immS_encS (imm : BitVec 12) (rs2 rs1 : BitVec 5) (funct3 : BitVec 3) (op : BitVec 7) :
    immS (encS imm rs2 rs1 funct3 op) = imm := by
  simp (disch := decide) only [encS, immS, BitVec.extractLsb'_append_eq_of_le,
    BitVec.extractLsb'_append_eq_of_add_le, BitVec.extractLsb'_eq_self, Nat.reduceSub]
  exact BitVec.extractLsb'_append_extractLsb' (w := 7) (len := 5) (x := imm)

/-- A scattered B-immediate comes back whole when it is even (R164). -/
theorem immB_encB (imm : BitVec 13) (rs2 rs1 : BitVec 5) (funct3 : BitVec 3) (h : lowZero imm 1 = true) :
    immB (encB imm rs2 rs1 funct3) = imm := by
  have h0 : imm.getLsbD 0 = false := by
    have := congrArg (fun v => BitVec.getLsbD v 0) (show imm.extractLsb' 0 1 = 0#1 by simpa [lowZero] using h)
    simpa using this
  simp (disch := decide) only [encB, immB, BitVec.extractLsb'_append_eq_of_le,
    BitVec.extractLsb'_append_eq_of_add_le, BitVec.extractLsb'_eq_self, Nat.reduceSub]
  apply BitVec.eq_of_getLsbD_eq
  intro i hi
  simp only [BitVec.getLsbD_append, BitVec.getLsbD_extractLsb']
  interval_cases i <;> simp_all

/-- A scattered J-immediate comes back whole when it is even (R165). -/
theorem immJ_encJ (imm : BitVec 21) (rd : BitVec 5) (h : lowZero imm 1 = true) : immJ (encJ imm rd) = imm := by
  have h0 : imm.getLsbD 0 = false := by
    have := congrArg (fun v => BitVec.getLsbD v 0) (show imm.extractLsb' 0 1 = 0#1 by simpa [lowZero] using h)
    simpa using this
  simp (disch := decide) only [encJ, immJ, BitVec.extractLsb'_append_eq_of_le,
    BitVec.extractLsb'_append_eq_of_add_le, BitVec.extractLsb'_eq_self, Nat.reduceSub]
  apply BitVec.eq_of_getLsbD_eq
  intro i hi
  simp only [BitVec.getLsbD_append, BitVec.getLsbD_extractLsb']
  interval_cases i <;> simp_all

/-- A rounding mode's field names it again (R62). -/
@[simp] theorem Rm.ofBits_toBits (rm : Rm) : Rm.ofBits rm.toBits = some rm := by
  cases rm <;> rfl

/-- A CSR's number names it again (R65). -/
@[simp] theorem Csr.ofNumber_number (c : Csr) : Csr.ofNumber c.number = some c := by
  cases c <;> rfl

/-- The 3-bit field of a register 8 to 15 names it again (R158). -/
theorem rvcReg_rvcField (r : BitVec 5) (h : isRvc r = true) : rvcReg (rvcField r) = r := by
  revert r
  decide

/-- A parcel's bytes put together again. -/
@[simp] theorem parcel_of_bytes (h : BitVec 16) : h.extractLsb' 8 8 ++ h.extractLsb' 0 8 = h :=
  BitVec.extractLsb'_append_extractLsb' (w := 8) (len := 8) (x := h)

/-- A word's bytes put together again. -/
theorem word_of_bytes (w : BitVec 32) :
    w.extractLsb' 24 8 ++ w.extractLsb' 16 8 ++ w.extractLsb' 8 8 ++ w.extractLsb' 0 8 = w := by
  apply BitVec.eq_of_getLsbD_eq
  intro i hi
  simp only [BitVec.getLsbD_append, BitVec.getLsbD_extractLsb']
  interval_cases i <;> simp

end Sys2Proof
end

