-- ==== Sys2Proof/Laws/Flags.lean ====
section
/-! SUPPORT. The fields of fcsr: what each reads after fcsr is put together, accrues flags, or is written as a CSR. -/

namespace Sys2Proof.Machine

@[simp] theorem fflagsOf_fcsrOf (frm : BitVec 3) (fl : FlagSet) : fflagsOf (fcsrOf frm fl) = fl := by
  simp (disch := decide) only [fflagsOf, fcsrOf, BitVec.extractLsb'_append_eq_of_add_le, BitVec.extractLsb'_eq_self]

@[simp] theorem frmOf_fcsrOf (frm : BitVec 3) (fl : FlagSet) : frmOf (fcsrOf frm fl) = frm := by
  simp (disch := decide) only [frmOf, fcsrOf, BitVec.extractLsb'_append_eq_of_le, BitVec.extractLsb'_eq_self,
    Nat.reduceSub]

@[simp] theorem fcsrOf_fields (c : BitVec 8) : fcsrOf (frmOf c) (fflagsOf c) = c :=
  BitVec.extractLsb'_append_extractLsb' (w := 3) (len := 5) (x := c)

@[simp] theorem fflagsOf_accrueFlags (c : BitVec 8) (fl : FlagSet) :
    fflagsOf (accrueFlags c fl) = fflagsOf c ||| fl := by
  simp [accrueFlags]

@[simp] theorem frmOf_accrueFlags (c : BitVec 8) (fl : FlagSet) : frmOf (accrueFlags c fl) = frmOf c := by
  simp [accrueFlags]

/-- No flag raised leaves fcsr alone. -/
@[simp] theorem accrueFlags_noFlags (c : BitVec 8) : accrueFlags c noFlags = c := by
  simp [accrueFlags, noFlags]

end Sys2Proof.Machine
end

