-- ==== Sys2Proof/Laws/Memory.lean ====
section
/-! SUPPORT. Guest memory: a read after a write, every other byte unchanged, and the canonical form kept by every
operation. -/

namespace Sys2Proof.Machine

theorem Memory.wf_cons {a : Nat} {v : Byte} {m : Memory} :
    Memory.wf ((a, v) :: m) = true ↔ a < 2 ^ 64 ∧ v ≠ unlistedByte ∧ Memory.above a m = true ∧ Memory.wf m = true := by
  simp [Memory.wf, and_assoc]

/-- Below the first listed address nothing is listed. -/
theorem byteAt_of_above {m : Memory} {a b : Nat} (hw : Memory.wf m = true) (ha : Memory.above a m = true)
    (hb : b ≤ a) : byteAt m b = unlistedByte := by
  induction m generalizing a with
  | nil => rfl
  | cons c m ih =>
    obtain ⟨k, v⟩ := c
    have hk : a < k := by simpa [Memory.above] using ha
    obtain ⟨-, -, hm, hwm⟩ := Memory.wf_cons.1 hw
    have : k ≠ b := by omega
    simp only [byteAt, this, if_false]
    exact ih hwm hm (by omega)

/-- A byte just set reads the value. -/
theorem byteAt_setByte_same {m : Memory} (hw : Memory.wf m = true) (a : Nat) (v : Byte) :
    byteAt (setByte m a v) a = v := by
  induction m with
  | nil => by_cases hv : v = unlistedByte <;> simp [setByte, byteAt, hv]
  | cons c m ih =>
    obtain ⟨k, b⟩ := c
    obtain ⟨-, -, hm, hwm⟩ := Memory.wf_cons.1 hw
    by_cases h1 : a < k
    · by_cases hv : v = unlistedByte
      · have hk : k ≠ a := by omega
        simp only [setByte, h1, hv, if_true, byteAt, hk, if_false]
        exact byteAt_of_above hwm hm (by omega)
      · simp [setByte, h1, hv, byteAt]
    · by_cases h2 : a = k
      · subst h2
        by_cases hv : v = unlistedByte
        · simp only [setByte, hv, if_true, lt_irrefl, if_false]
          exact byteAt_of_above hwm hm (le_refl a)
        · simp [setByte, hv, byteAt]
      · have hk : k ≠ a := fun h => h2 h.symm
        simp only [setByte, h1, h2, if_false, byteAt, hk]
        exact ih hwm

/-- Setting a byte leaves every other byte alone. -/
theorem byteAt_setByte_other (m : Memory) {a b : Nat} (v : Byte) (h : b ≠ a) :
    byteAt (setByte m a v) b = byteAt m b := by
  induction m with
  | nil => by_cases hv : v = unlistedByte <;> simp [setByte, byteAt, hv, Ne.symm h]
  | cons c m ih =>
    obtain ⟨k, w⟩ := c
    by_cases h1 : a < k
    · by_cases hv : v = unlistedByte <;> simp [setByte, h1, hv, byteAt, Ne.symm h]
    · by_cases h2 : a = k
      · subst h2
        by_cases hv : v = unlistedByte <;> simp [setByte, hv, byteAt, Ne.symm h]
      · simp only [setByte, h1, h2, if_false, byteAt, ih]

theorem Memory.above_mono {m : Memory} {a b : Nat} (h : Memory.above b m = true) (hab : a ≤ b) :
    Memory.above a m = true := by
  cases m with
  | nil => rfl
  | cons c m =>
    have : b < c.1 := by simpa [Memory.above] using h
    simp only [Memory.above, decide_eq_true_eq]
    omega

theorem Memory.above_setByte {m : Memory} {a c : Nat} (v : Byte) (h : Memory.above c m = true)
    (hw : Memory.wf m = true) (ha : c < a) : Memory.above c (setByte m a v) = true := by
  cases m with
  | nil => by_cases hv : v = unlistedByte <;> simp [setByte, hv, Memory.above, ha]
  | cons d m =>
    obtain ⟨k, w⟩ := d
    obtain ⟨-, -, hm, -⟩ := Memory.wf_cons.1 hw
    have hk : c < k := by simpa [Memory.above] using h
    by_cases h1 : a < k
    · by_cases hv : v = unlistedByte <;> simp [setByte, h1, hv, Memory.above, ha, hk]
    · by_cases h2 : a = k
      · by_cases hv : v = unlistedByte
        · simp only [setByte, h2, hv, if_true, lt_irrefl, if_false]
          exact Memory.above_mono hm (by omega)
        · simp [setByte, h2, hv, Memory.above, hk]
      · simp [setByte, h1, h2, Memory.above, hk]

/-- Setting a byte keeps the canonical form. -/
theorem setByte_wf {m : Memory} {a : Nat} (v : Byte) (hw : Memory.wf m = true) (ha : a < 2 ^ 64) :
    Memory.wf (setByte m a v) = true := by
  induction m with
  | nil => by_cases hv : v = unlistedByte <;> simp_all [setByte, Memory.wf, Memory.above]
  | cons c m ih =>
    obtain ⟨k, w⟩ := c
    obtain ⟨hk, hne, hm, hwm⟩ := Memory.wf_cons.1 hw
    by_cases h1 : a < k
    · by_cases hv : v = unlistedByte
      · simpa [setByte, h1, hv] using hw
      · simp only [setByte, h1, hv, if_true, if_false]
        exact Memory.wf_cons.2 ⟨ha, hv, by simp [Memory.above, h1], hw⟩
    · by_cases h2 : a = k
      · subst h2
        by_cases hv : v = unlistedByte
        · simpa [setByte, hv] using hwm
        · simp only [setByte, hv, lt_irrefl, if_true, if_false]
          exact Memory.wf_cons.2 ⟨ha, hv, hm, hwm⟩
      · simp only [setByte, h1, h2, if_false]
        exact Memory.wf_cons.2 ⟨hk, hne, Memory.above_setByte v hm hwm (by omega), ih hwm⟩

/-- A store keeps the canonical form. -/
theorem memWrite_wf {m : Memory} (hw : Memory.wf m = true) (a : Word) (n : Nat) (v : Word) :
    Memory.wf (memWrite m a n v) = true := by
  induction n generalizing m a v with
  | zero => exact hw
  | succ n ih => exact ih (setByte_wf _ hw a.isLt) _ _

/-- The host's writes keep the canonical form. -/
theorem writeBytes_wf {m : Memory} (hw : Memory.wf m = true) (ws : List (Word × Byte)) :
    Memory.wf (writeBytes m ws) = true := by
  induction ws generalizing m with
  | nil => exact hw
  | cons w ws ih => exact ih (setByte_wf _ hw w.1.isLt)

/-- The host's writes leave every other byte alone. -/
theorem byteAt_writeBytes_other (m : Memory) (ws : List (Word × Byte)) {a : Word} (h : ∀ c ∈ ws, c.1 ≠ a) :
    byteAt (writeBytes m ws) a.toNat = byteAt m a.toNat := by
  induction ws generalizing m with
  | nil => rfl
  | cons c ws ih =>
    have hc : a.toNat ≠ c.1.toNat := fun e => h c (List.mem_cons_self ..) (BitVec.eq_of_toNat_eq e.symm)
    exact (ih _ fun d hd => h d (List.mem_cons_of_mem _ hd)).trans (byteAt_setByte_other m c.2 hc)

/-- A byte written several times holds the last value written there. -/
theorem byteAt_writeBytes_last {m : Memory} (hw : Memory.wf m = true) (ws : List (Word × Byte)) (c : Word × Byte)
    (later : List (Word × Byte)) (h : ∀ d ∈ later, d.1 ≠ c.1) :
    byteAt (writeBytes m (ws ++ c :: later)) c.1.toNat = c.2 := by
  induction ws generalizing m with
  | nil => exact (byteAt_writeBytes_other _ later h).trans (byteAt_setByte_same hw _ _)
  | cons d ws ih => exact ih (setByte_wf d.2 hw d.1.isLt)

/-- The bytes of an access are the addresses from `a` on. -/
theorem mem_accessBytes {a b : Word} {n : Nat} :
    b ∈ accessBytes a n ↔ ∃ i, i < n ∧ b = a + BitVec.ofNat 64 i := by
  induction n generalizing a with
  | zero => simp [accessBytes]
  | succ n ih =>
    simp only [accessBytes, List.mem_cons, ih]
    constructor
    · rintro (rfl | ⟨i, hi, rfl⟩)
      · exact ⟨0, by omega, by simp⟩
      · refine ⟨i + 1, by omega, ?_⟩
        rw [BitVec.add_assoc, BitVec.add_comm 1#64, BitVec.ofNat_add]
    · rintro ⟨i, hi, rfl⟩
      cases i with
      | zero => left; simp
      | succ i =>
        right
        refine ⟨i, by omega, ?_⟩
        rw [BitVec.add_assoc, BitVec.add_comm 1#64, BitVec.ofNat_add]

/-- A store leaves every byte outside its access alone. -/
theorem byteAt_memWrite_outside (m : Memory) (a : Word) (n : Nat) (v b : Word) (h : b ∉ accessBytes a n) :
    byteAt (memWrite m a n v) b.toNat = byteAt m b.toNat := by
  induction n generalizing m a v with
  | zero => rfl
  | succ n ih =>
    simp only [accessBytes, List.mem_cons, not_or] at h
    rw [memWrite, ih _ _ _ h.2]
    exact byteAt_setByte_other m _ fun he => h.1 (BitVec.eq_of_toNat_eq he)

/-- A store of at most 2^64 bytes puts byte i of the value at `a + i`. -/
theorem byteAt_memWrite_inside {m : Memory} (hw : Memory.wf m = true) (a : Word) (n : Nat) (v : Word) {i : Nat}
    (hi : i < n) (hn : n ≤ 2 ^ 64) :
    byteAt (memWrite m a n v) (a + BitVec.ofNat 64 i).toNat = (v >>> (8 * i)).setWidth 8 := by
  induction n generalizing m a v i with
  | zero => omega
  | succ n ih =>
    rw [memWrite]
    cases i with
    | zero =>
      rw [byteAt_memWrite_outside]
      · have h0 : a + BitVec.ofNat 64 0 = a := by simp
        rw [h0, byteAt_setByte_same hw]
        simp
      · intro hm
        obtain ⟨j, hj, he⟩ := mem_accessBytes.1 hm
        have : BitVec.ofNat 64 (j + 1) = 0#64 := by
          have he' : a + BitVec.ofNat 64 0 = a + BitVec.ofNat 64 (j + 1) := by
            rw [he, BitVec.add_assoc, BitVec.add_comm 1#64, ← BitVec.ofNat_add]
          simpa using he'.symm
        have := congrArg BitVec.toNat this
        simp at this
        omega
    | succ i =>
      have he : a + BitVec.ofNat 64 (i + 1) = a + 1#64 + BitVec.ofNat 64 i := by
        rw [BitVec.add_assoc, BitVec.add_comm 1#64, ← BitVec.ofNat_add]
      rw [he, ih (setByte_wf _ hw a.isLt) _ _ (by omega) (by omega)]
      rw [← BitVec.shiftRight_add]
      congr 2
      omega

/-- Two memories in canonical form that read alike everywhere are equal. -/
theorem Memory.ext_of_wf {m m' : Memory} (hw : Memory.wf m = true) (hw' : Memory.wf m' = true)
    (h : ∀ a, byteAt m a = byteAt m' a) : m = m' := by
  induction m generalizing m' with
  | nil =>
    cases m' with
    | nil => rfl
    | cons c m' =>
      obtain ⟨-, hne, -, -⟩ := Memory.wf_cons.1 hw'
      exact absurd (by simpa [byteAt] using (h c.1).symm) hne
  | cons c m ih =>
    obtain ⟨k, v⟩ := c
    obtain ⟨-, hne, hm, hwm⟩ := Memory.wf_cons.1 hw
    cases m' with
    | nil => exact absurd (by simpa [byteAt] using h k) hne
    | cons c' m' =>
      obtain ⟨k', v'⟩ := c'
      obtain ⟨-, hne', hm', hwm'⟩ := Memory.wf_cons.1 hw'
      have hkk : k = k' := by
        rcases Nat.lt_trichotomy k k' with hlt | heq | hgt
        · have hk := h k
          have h1 : k' ≠ k := by omega
          simp only [byteAt, if_true, h1, if_false, byteAt_of_above hwm' hm' (Nat.le_of_lt hlt)] at hk
          exact absurd hk hne
        · exact heq
        · have hk := h k'
          have h1 : k ≠ k' := by omega
          simp only [byteAt, if_true, h1, if_false, byteAt_of_above hwm hm (Nat.le_of_lt hgt)] at hk
          exact absurd hk.symm hne'
      subst hkk
      have hv : v = v' := by simpa [byteAt] using h k
      subst hv
      congr 1
      refine ih hwm hwm' fun a => ?_
      by_cases ha : k = a
      · subst ha
        rw [byteAt_of_above hwm hm (le_refl k), byteAt_of_above hwm' hm' (le_refl k)]
      · simpa [byteAt, ha] using h a

end Sys2Proof.Machine
end

