-- ==== Sys2Proof/Laws/State.lean ====
section
/-! SUPPORT. One lemma for each field under each update of the state, so that no proof unfolds a record update, and what
the register ports read after a write. -/

namespace Sys2Proof.Machine

variable (s : State)

/-! ## Fields under updates -/

@[simp] theorem State.wx_f (i : XReg) (v : Word) : (s.wx i v).f = s.f := rfl

@[simp] theorem State.wx_pc (i : XReg) (v : Word) : (s.wx i v).pc = s.pc := rfl

@[simp] theorem State.wx_fcsr (i : XReg) (v : Word) : (s.wx i v).fcsr = s.fcsr := rfl

@[simp] theorem State.wx_resv (i : XReg) (v : Word) : (s.wx i v).resv = s.resv := rfl

@[simp] theorem State.wx_otherHartWrote (i : XReg) (v : Word) : (s.wx i v).otherHartWrote = s.otherHartWrote := rfl

@[simp] theorem State.wx_mem (i : XReg) (v : Word) : (s.wx i v).mem = s.mem := rfl

@[simp] theorem State.wx_params (i : XReg) (v : Word) : (s.wx i v).params = s.params := rfl

@[simp] theorem State.wx_status (i : XReg) (v : Word) : (s.wx i v).status = s.status := rfl

@[simp] theorem State.wx_hart (i : XReg) (v : Word) : (s.wx i v).hart = s.hart := rfl

@[simp] theorem State.wx_hostCalls (i : XReg) (v : Word) : (s.wx i v).hostCalls = s.hostCalls := rfl

@[simp] theorem State.discardRegisters_mem : s.discardRegisters.mem = s.mem := rfl

@[simp] theorem State.discardRegisters_params : s.discardRegisters.params = s.params := rfl

@[simp] theorem State.discardRegisters_status : s.discardRegisters.status = s.status := rfl

@[simp] theorem State.discardRegisters_hart : s.discardRegisters.hart = s.hart := rfl

@[simp] theorem State.discardRegisters_hostCalls : s.discardRegisters.hostCalls = s.hostCalls := rfl

@[simp] theorem State.discardRegisters_x : s.discardRegisters.x = Vector.replicate 32 0#64 := rfl

@[simp] theorem State.discardRegisters_f : s.discardRegisters.f = Vector.replicate 32 0#64 := rfl

@[simp] theorem State.discardRegisters_pc : s.discardRegisters.pc = 0#64 := rfl

@[simp] theorem State.discardRegisters_fcsr : s.discardRegisters.fcsr = 0#8 := rfl

@[simp] theorem State.discardRegisters_resv : s.discardRegisters.resv = none := rfl

@[simp] theorem State.discardRegisters_otherHartWrote : s.discardRegisters.otherHartWrote = false := rfl

@[simp] theorem State.wf_x (i : FReg) (v : Word) : (s.wf i v).x = s.x := rfl

@[simp] theorem State.wf_pc (i : FReg) (v : Word) : (s.wf i v).pc = s.pc := rfl

@[simp] theorem State.wf_fcsr (i : FReg) (v : Word) : (s.wf i v).fcsr = s.fcsr := rfl

@[simp] theorem State.wf_resv (i : FReg) (v : Word) : (s.wf i v).resv = s.resv := rfl

@[simp] theorem State.wf_otherHartWrote (i : FReg) (v : Word) : (s.wf i v).otherHartWrote = s.otherHartWrote := rfl

@[simp] theorem State.wf_mem (i : FReg) (v : Word) : (s.wf i v).mem = s.mem := rfl

@[simp] theorem State.wf_params (i : FReg) (v : Word) : (s.wf i v).params = s.params := rfl

@[simp] theorem State.wf_status (i : FReg) (v : Word) : (s.wf i v).status = s.status := rfl

@[simp] theorem State.wf_hart (i : FReg) (v : Word) : (s.wf i v).hart = s.hart := rfl

@[simp] theorem State.wf_hostCalls (i : FReg) (v : Word) : (s.wf i v).hostCalls = s.hostCalls := rfl

@[simp] theorem State.accrue_x (fl : FlagSet) : (s.accrue fl).x = s.x := rfl

@[simp] theorem State.accrue_f (fl : FlagSet) : (s.accrue fl).f = s.f := rfl

@[simp] theorem State.accrue_pc (fl : FlagSet) : (s.accrue fl).pc = s.pc := rfl

@[simp] theorem State.accrue_fcsr (fl : FlagSet) : (s.accrue fl).fcsr = accrueFlags s.fcsr fl := rfl

@[simp] theorem State.accrue_resv (fl : FlagSet) : (s.accrue fl).resv = s.resv := rfl

@[simp] theorem State.accrue_otherHartWrote (fl : FlagSet) : (s.accrue fl).otherHartWrote = s.otherHartWrote := rfl

@[simp] theorem State.accrue_mem (fl : FlagSet) : (s.accrue fl).mem = s.mem := rfl

@[simp] theorem State.accrue_params (fl : FlagSet) : (s.accrue fl).params = s.params := rfl

@[simp] theorem State.accrue_status (fl : FlagSet) : (s.accrue fl).status = s.status := rfl

@[simp] theorem State.accrue_hart (fl : FlagSet) : (s.accrue fl).hart = s.hart := rfl

@[simp] theorem State.accrue_hostCalls (fl : FlagSet) : (s.accrue fl).hostCalls = s.hostCalls := rfl

@[simp] theorem State.withFcsr_x (v : BitVec 8) : (s.withFcsr v).x = s.x := rfl

@[simp] theorem State.withFcsr_f (v : BitVec 8) : (s.withFcsr v).f = s.f := rfl

@[simp] theorem State.withFcsr_pc (v : BitVec 8) : (s.withFcsr v).pc = s.pc := rfl

@[simp] theorem State.withFcsr_fcsr (v : BitVec 8) : (s.withFcsr v).fcsr = v := rfl

@[simp] theorem State.withFcsr_resv (v : BitVec 8) : (s.withFcsr v).resv = s.resv := rfl

@[simp] theorem State.withFcsr_otherHartWrote (v : BitVec 8) : (s.withFcsr v).otherHartWrote = s.otherHartWrote := rfl

@[simp] theorem State.withFcsr_mem (v : BitVec 8) : (s.withFcsr v).mem = s.mem := rfl

@[simp] theorem State.withFcsr_params (v : BitVec 8) : (s.withFcsr v).params = s.params := rfl

@[simp] theorem State.withFcsr_status (v : BitVec 8) : (s.withFcsr v).status = s.status := rfl

@[simp] theorem State.withFcsr_hart (v : BitVec 8) : (s.withFcsr v).hart = s.hart := rfl

@[simp] theorem State.withFcsr_hostCalls (v : BitVec 8) : (s.withFcsr v).hostCalls = s.hostCalls := rfl

@[simp] theorem State.withMem_x (m : Memory) : (s.withMem m).x = s.x := rfl

@[simp] theorem State.withMem_f (m : Memory) : (s.withMem m).f = s.f := rfl

@[simp] theorem State.withMem_pc (m : Memory) : (s.withMem m).pc = s.pc := rfl

@[simp] theorem State.withMem_fcsr (m : Memory) : (s.withMem m).fcsr = s.fcsr := rfl

@[simp] theorem State.withMem_resv (m : Memory) : (s.withMem m).resv = s.resv := rfl

@[simp] theorem State.withMem_otherHartWrote (m : Memory) : (s.withMem m).otherHartWrote = s.otherHartWrote := rfl

@[simp] theorem State.withMem_mem (m : Memory) : (s.withMem m).mem = m := rfl

@[simp] theorem State.withMem_params (m : Memory) : (s.withMem m).params = s.params := rfl

@[simp] theorem State.withMem_status (m : Memory) : (s.withMem m).status = s.status := rfl

@[simp] theorem State.withMem_hart (m : Memory) : (s.withMem m).hart = s.hart := rfl

@[simp] theorem State.withMem_hostCalls (m : Memory) : (s.withMem m).hostCalls = s.hostCalls := rfl

@[simp] theorem State.withPc_x (t : Word) : (s.withPc t).x = s.x := rfl

@[simp] theorem State.withPc_f (t : Word) : (s.withPc t).f = s.f := rfl

@[simp] theorem State.withPc_pc (t : Word) : (s.withPc t).pc = t := rfl

@[simp] theorem State.withPc_fcsr (t : Word) : (s.withPc t).fcsr = s.fcsr := rfl

@[simp] theorem State.withPc_resv (t : Word) : (s.withPc t).resv = s.resv := rfl

@[simp] theorem State.withPc_otherHartWrote (t : Word) : (s.withPc t).otherHartWrote = s.otherHartWrote := rfl

@[simp] theorem State.withPc_mem (t : Word) : (s.withPc t).mem = s.mem := rfl

@[simp] theorem State.withPc_params (t : Word) : (s.withPc t).params = s.params := rfl

@[simp] theorem State.withPc_status (t : Word) : (s.withPc t).status = s.status := rfl

@[simp] theorem State.withPc_hart (t : Word) : (s.withPc t).hart = s.hart := rfl

@[simp] theorem State.withPc_hostCalls (t : Word) : (s.withPc t).hostCalls = s.hostCalls := rfl

@[simp] theorem State.reserve_x (a : Word) (n : Nat) : (s.reserve a n).x = s.x := rfl

@[simp] theorem State.reserve_f (a : Word) (n : Nat) : (s.reserve a n).f = s.f := rfl

@[simp] theorem State.reserve_pc (a : Word) (n : Nat) : (s.reserve a n).pc = s.pc := rfl

@[simp] theorem State.reserve_fcsr (a : Word) (n : Nat) : (s.reserve a n).fcsr = s.fcsr := rfl

@[simp] theorem State.reserve_mem (a : Word) (n : Nat) : (s.reserve a n).mem = s.mem := rfl

@[simp] theorem State.reserve_params (a : Word) (n : Nat) : (s.reserve a n).params = s.params := rfl

@[simp] theorem State.reserve_status (a : Word) (n : Nat) : (s.reserve a n).status = s.status := rfl

@[simp] theorem State.reserve_hart (a : Word) (n : Nat) : (s.reserve a n).hart = s.hart := rfl

@[simp] theorem State.reserve_hostCalls (a : Word) (n : Nat) : (s.reserve a n).hostCalls = s.hostCalls := rfl

@[simp] theorem State.unreserve_x : (s.unreserve).x = s.x := rfl

@[simp] theorem State.unreserve_f : (s.unreserve).f = s.f := rfl

@[simp] theorem State.unreserve_pc : (s.unreserve).pc = s.pc := rfl

@[simp] theorem State.unreserve_fcsr : (s.unreserve).fcsr = s.fcsr := rfl

@[simp] theorem State.unreserve_otherHartWrote : (s.unreserve).otherHartWrote = s.otherHartWrote := rfl

@[simp] theorem State.unreserve_mem : (s.unreserve).mem = s.mem := rfl

@[simp] theorem State.unreserve_params : (s.unreserve).params = s.params := rfl

@[simp] theorem State.unreserve_status : (s.unreserve).status = s.status := rfl

@[simp] theorem State.unreserve_hart : (s.unreserve).hart = s.hart := rfl

@[simp] theorem State.unreserve_hostCalls : (s.unreserve).hostCalls = s.hostCalls := rfl

/-! ## Register ports -/

@[simp] theorem State.rx_zero : s.rx 0#5 = 0#64 := rfl

@[simp] theorem State.wx_zero (v : Word) : s.wx 0#5 v = s := rfl

theorem State.rx_wx (i j : XReg) (v : Word) : (s.wx i v).rx j = if i = j ∧ i ≠ 0#5 then v else s.rx j := by
  by_cases hj : j = 0#5
  · subst hj
    by_cases hi : i = 0#5 <;> simp [State.rx, hi]
  · by_cases hi : i = 0#5
    · subst hi
      simp [State.rx, State.wx]
    · by_cases hij : i = j
      · subst hij
        simp [State.rx, State.wx, hi]
      · have : i.toNat ≠ j.toNat := fun h => hij (BitVec.eq_of_toNat_eq h)
        simp [State.rx, State.wx, hi, hj, hij, Vector.getElem_set_ne, this]

/-- A register just written reads the value, unless it is x0. -/
theorem State.rx_wx_same (i : XReg) (v : Word) (hi : i ≠ 0#5) : (s.wx i v).rx i = v := by
  simp [State.rx_wx, hi]

/-- A write leaves every other register alone. -/
theorem State.rx_wx_other (i j : XReg) (v : Word) (h : i ≠ j) : (s.wx i v).rx j = s.rx j := by
  simp [State.rx_wx, h]

theorem State.rf_wf (i j : FReg) (v : Word) : (s.wf i v).rf j = if i = j then v else s.rf j := by
  by_cases hij : i = j
  · subst hij
    simp [State.rf, State.wf]
  · have : i.toNat ≠ j.toNat := fun h => hij (BitVec.eq_of_toNat_eq h)
    simp [State.rf, State.wf, hij, Vector.getElem_set_ne, this]

@[simp] theorem State.rf_wf_same (i : FReg) (v : Word) : (s.wf i v).rf i = v := by
  simp [State.rf_wf]

theorem State.rf_wf_other (i j : FReg) (v : Word) (h : i ≠ j) : (s.wf i v).rf j = s.rf j := by
  simp [State.rf_wf, h]

@[simp] theorem State.rf_wx (i : XReg) (v : Word) (j : FReg) : (s.wx i v).rf j = s.rf j := rfl

@[simp] theorem State.rx_wf (i : FReg) (v : Word) (j : XReg) : (s.wf i v).rx j = s.rx j := rfl

@[simp] theorem State.rx_accrue (fl : FlagSet) (j : XReg) : (s.accrue fl).rx j = s.rx j := rfl

@[simp] theorem State.rf_accrue (fl : FlagSet) (j : FReg) : (s.accrue fl).rf j = s.rf j := rfl

@[simp] theorem State.rx_withFcsr (v : BitVec 8) (j : XReg) : (s.withFcsr v).rx j = s.rx j := rfl

@[simp] theorem State.rf_withFcsr (v : BitVec 8) (j : FReg) : (s.withFcsr v).rf j = s.rf j := rfl

@[simp] theorem State.rx_withMem (m : Memory) (j : XReg) : (s.withMem m).rx j = s.rx j := rfl

@[simp] theorem State.rf_withMem (m : Memory) (j : FReg) : (s.withMem m).rf j = s.rf j := rfl

@[simp] theorem State.rx_withPc (t : Word) (j : XReg) : (s.withPc t).rx j = s.rx j := rfl

@[simp] theorem State.rf_withPc (t : Word) (j : FReg) : (s.withPc t).rf j = s.rf j := rfl

@[simp] theorem State.rx_reserve (a : Word) (n : Nat) (j : XReg) : (s.reserve a n).rx j = s.rx j := rfl

@[simp] theorem State.rf_reserve (a : Word) (n : Nat) (j : FReg) : (s.reserve a n).rf j = s.rf j := rfl

@[simp] theorem State.rx_unreserve (j : XReg) : (s.unreserve).rx j = s.rx j := rfl

@[simp] theorem State.rf_unreserve (j : FReg) : (s.unreserve).rf j = s.rf j := rfl

end Sys2Proof.Machine
end

