-- ==== Sys2Proof/Laws/Exec.lean ====
section
/-! SUPPORT. What each shared operation of Machine/Ops.lean can do, said once: the proofs about an instruction cite these
and unfold only the instruction's own meaning. -/

namespace Sys2Proof.Machine

variable {s t : State}

/-! ## The ends of a step -/

@[simp] theorem retire_next (len : Nat) (s : State) : retire len s = .next (s.withPc (s.nextPc len)) := rfl

@[simp] theorem retireX_next (len : Nat) (rd : XReg) (v : Word) (s : State) :
    retireX len rd v s = .next ((s.wx rd v).withPc (s.nextPc len)) := rfl

@[simp] theorem retireF_next (len : Nat) (frd : FReg) (v : Word) (s : State) :
    retireF len frd v s = .next ((s.wf frd v).withPc (s.nextPc len)) := rfl

@[simp] theorem retireXFlags_next (rd : XReg) (r : Word × FlagSet) (s : State) :
    retireXFlags rd r s = .next (((s.wx rd r.1).accrue r.2).withPc (s.nextPc 4)) := rfl

@[simp] theorem retireS_next (frd : FReg) (r : BitVec 32 × FlagSet) (s : State) :
    retireS frd r s = .next (((s.wf frd (boxS r.1)).accrue r.2).withPc (s.nextPc 4)) := rfl

@[simp] theorem retireD_next (frd : FReg) (r : Word × FlagSet) (s : State) :
    retireD frd r s = .next (((s.wf frd r.1).accrue r.2).withPc (s.nextPc 4)) := rfl

/-- A stop event records itself and changes the status alone (R803). -/
theorem raise_next (e : StopEvent) (s : State) :
    ∃ t, raise e s = .next t ∧ t.status = .stopped { event := e, pc := s.pc, hart := s.hart } ∧
      { t with status := s.status } = s := ⟨_, rfl, rfl, rfl⟩

/-- What follows `withMode` runs under the effective mode, or the hart stops with IllegalRoundingMode (R404, R405). -/
theorem withMode_cases (rm : Rm) (s : State) (k : RoundingMode → Result) :
    (∃ m, effectiveMode rm s.fcsr = some m ∧ withMode rm s k = k m) ∨
    (effectiveMode rm s.fcsr = none ∧ withMode rm s k = raise (.illegalRoundingMode (frmOf s.fcsr)) s) := by
  unfold withMode
  cases effectiveMode rm s.fcsr with
  | none => exact .inr ⟨rfl, rfl⟩
  | some m => exact .inl ⟨m, rfl, rfl⟩

theorem withMode_of_mode {rm : Rm} {m : RoundingMode} (h : effectiveMode rm s.fcsr = some m)
    (k : RoundingMode → Result) : withMode rm s k = k m := by
  simp [withMode, h]

/-! ## The load-store unit -/

/-- A request goes on with its response, or stops the hart with nothing performed (R105). -/
theorem access_cases (q : LsuReq) (s : State) (k : Word → State → Result) :
    (admission q s = none ∧ access q s k = k (perform q s).1 (perform q s).2) ∨
    (∃ e, admission q s = some e ∧ access q s k = raise e s) := by
  unfold access
  cases admission q s with
  | none => exact .inl ⟨rfl, rfl⟩
  | some e => exact .inr ⟨e, rfl, rfl⟩

theorem access_of_admitted {q : LsuReq} (h : admission q s = none) (k : Word → State → Result) :
    access q s k = k (perform q s).1 (perform q s).2 := by
  simp [access, h]

/-- An admitted request changes memory, the reservation and its invalidation, and nothing else. -/
theorem perform_frame (q : LsuReq) (s : State) :
    (perform q s).2 = { s with
      mem := (perform q s).2.mem, resv := (perform q s).2.resv,
      otherHartWrote := (perform q s).2.otherHartWrote } := by
  unfold perform
  split
  · rfl
  · rfl
  · rfl
  · split <;> rfl
  · rfl

@[simp] theorem perform_x (q : LsuReq) (s : State) : (perform q s).2.x = s.x := by rw [perform_frame]
@[simp] theorem perform_f (q : LsuReq) (s : State) : (perform q s).2.f = s.f := by rw [perform_frame]
@[simp] theorem perform_pc (q : LsuReq) (s : State) : (perform q s).2.pc = s.pc := by rw [perform_frame]
@[simp] theorem perform_fcsr (q : LsuReq) (s : State) : (perform q s).2.fcsr = s.fcsr := by rw [perform_frame]
@[simp] theorem perform_params (q : LsuReq) (s : State) : (perform q s).2.params = s.params := by rw [perform_frame]
@[simp] theorem perform_status (q : LsuReq) (s : State) : (perform q s).2.status = s.status := by rw [perform_frame]
@[simp] theorem perform_hart (q : LsuReq) (s : State) : (perform q s).2.hart = s.hart := by rw [perform_frame]
@[simp] theorem perform_hostCalls (q : LsuReq) (s : State) : (perform q s).2.hostCalls = s.hostCalls := by
  rw [perform_frame]

/-- Every request keeps memory in canonical form. -/
theorem perform_mem_wf (q : LsuReq) (h : Memory.wf s.mem = true) : Memory.wf (perform q s).2.mem = true := by
  unfold perform
  split
  · exact h
  · exact memWrite_wf h _ _ _
  · exact h
  · split
    · exact memWrite_wf (by simpa using h) _ _ _
    · exact h
  · exact memWrite_wf h _ _ _

/-- The mapping check passes exactly when every byte is mapped for every kind the access needs (R106). -/
theorem checkMapped_eq_none {p : Params} {kinds : List AccessKind} {a : Word} {n : Nat} :
    checkMapped p kinds a n = none ↔ ∀ b ∈ accessBytes a n, ∀ k ∈ kinds, mapped p b k = true := by
  have hl : ∀ l : List Word, lowest l = none ↔ l = [] := by
    intro l
    cases l with
    | nil => simp [lowest]
    | cons c cs =>
      simp only [lowest, reduceCtorEq, iff_false]
      split
      · simp
      · split <;> simp
  have hm : ∀ b, (missingKind p kinds b).isSome = true ↔ ∃ k ∈ kinds, mapped p b k = false := by
    intro b
    simp [missingKind, List.find?_isSome]
  have hf : failingBytes p kinds a n = [] ↔ ∀ b ∈ accessBytes a n, ∀ k ∈ kinds, mapped p b k = true := by
    simp [failingBytes, List.filter_eq_nil_iff, missingKind]
  rw [← hf, ← hl]
  unfold checkMapped
  cases h : lowest (failingBytes p kinds a n) with
  | none => simp
  | some b =>
    have hb : b ∈ failingBytes p kinds a n := by
      have key : ∀ (l : List Word) (c : Word), lowest l = some c → c ∈ l := by
        intro l
        induction l with
        | nil => simp [lowest]
        | cons d ds ih =>
          intro c hc
          simp only [lowest] at hc
          split at hc
          · simp_all
          · rename_i e he
            split at hc
            · simp_all
            · obtain rfl : e = c := by simpa using hc
              exact List.mem_cons_of_mem _ (ih _ he)
      exact key _ _ h
    have hs : (missingKind p kinds b).isSome = true := (List.mem_filter.mp hb).2
    obtain ⟨k, hk⟩ := Option.isSome_iff_exists.mp hs
    simp [hk]

/-! ## The host -/

/-- The host's return from a system call keeps memory in canonical form, the hart's name and every parameter but the mapping
(R655, R656, R852). -/
theorem hostReturn_keeps (reply : SyscallReply) (s : State) :
    (Memory.wf s.mem = true → Memory.wf (hostReturn reply s).mem = true) ∧ (hostReturn reply s).hart = s.hart ∧
    (hostReturn reply s).params.lrscMode = s.params.lrscMode ∧
    (hostReturn reply s).params.misalignedPlain = s.params.misalignedPlain ∧
    (hostReturn reply s).params.withheld = s.params.withheld := by
  cases reply with
  | resume v ws m => exact ⟨fun h => writeBytes_wf h ws, rfl, rfl, rfl, rfl⟩
  | exit => exact ⟨id, rfl, rfl, rfl, rfl⟩

/-- A reply with a result changes no register but x10 and the pc (R656). -/
theorem hostReturn_resume (v : Word) (ws : List (Word × Byte)) (m : Option (List Region)) (s : State) :
    (hostReturn (.resume v ws m) s).x = (s.wx 10#5 v).x ∧ (hostReturn (.resume v ws m) s).f = s.f ∧
    (hostReturn (.resume v ws m) s).fcsr = s.fcsr ∧ (hostReturn (.resume v ws m) s).pc = s.nextPc 4 ∧
    (hostReturn (.resume v ws m) s).status = .running := ⟨rfl, rfl, rfl, rfl, rfl⟩

/-- An exit discards the registers, keeps memory and records x10 (R852, R853). -/
theorem hostReturn_exit (s : State) :
    (hostReturn .exit s).mem = s.mem ∧ (hostReturn .exit s).status = .ended (s.rx 10#5) ∧
    (∀ j, (hostReturn .exit s).rx j = 0#64) ∧ ∀ j, (hostReturn .exit s).rf j = 0#64 := by
  refine ⟨rfl, rfl, fun j => ?_, fun j => ?_⟩
  · simp [hostReturn, State.discardRegisters, State.rx]
  · simp [hostReturn, State.discardRegisters, State.rf]

end Sys2Proof.Machine
end

