-- ==== Sys2Proof/Laws/Ordering.lean ====
section
/-! SUPPORT. The memory model admits every execution whose events happen one after another on one memory: the sequential
executions. This shows that its axioms hold together, and gives the tests their executions. -/

namespace Sys2Proof.Machine

/-- The event writes the byte `a`. -/
def MemEvent.writesAt (ev : MemEvent) (a : Word) : Bool :=
  (ev.kind == .write || ev.kind == .rmw) && (accessBytes ev.addr ev.bytes).contains a

/-- The event numbered `w` writes the byte `a`. -/
def writesAt (evs : List MemEvent) (w : Nat) (a : Word) : Bool := (evs[w]?).any fun ev => ev.writesAt a

/-- The execution in which the events happen in the order of the list, each read returning the last write before it. -/
def Execution.ofSequence (evs : List MemEvent) : Execution where
  events := evs
  rf := fun r a => Nat.findGreatest (fun w => writesAt evs w a = true) (r - 1)
  mo := fun a d e => writesAt evs d a = true ∧ writesAt evs e a = true ∧ d < e
  fences := fun d e => (evs[d]?).any (fun ev => ev.kind == .fence) = true ∧
    (evs[e]?).any (fun ev => ev.kind == .fence) = true ∧ d < e
  beforeLaunch := fun _ _ => False

/-- The host's events come before a hart's, and one hart's in program order. -/
def inOrder (d e : MemEvent) : Bool :=
  d.agent == .host || (e.agent != .host && (d.agent != e.agent || !decide (e.pos.before d.pos)))

/-- The r-th event, if it reads, reads at each byte what the last write before it wrote there. -/
def readsLast (evs : List MemEvent) (r : Nat) (ev : MemEvent) : Bool :=
  !(ev.kind == .read || ev.kind == .rmw) ||
  (accessBytes ev.addr ev.bytes).all fun a =>
    let w := (Execution.ofSequence evs).rf r a
    decide (w < r) && (evs[w]?).any fun wv => wv.writesAt a &&
      match ev.readValue, wv.writeValue with
      | some v, some u => valueByte v ev.addr a == valueByte u wv.addr a
      | some _, none => false
      | none, _ => false

/-- The e-th event, if it writes, is the host's or has a write of the host before it at each byte. -/
def afterHost (evs : List MemEvent) (e : Nat) (ev : MemEvent) : Bool :=
  !(ev.kind == .write || ev.kind == .rmw) || ev.byHost ||
  (accessBytes ev.addr ev.bytes).all fun a =>
    (List.range e).any fun w => (evs[w]?).any fun wv => wv.byHost && wv.writesAt a

/-- The e-th event, if it is the write of an SC in reserve mode, has the LR of its reservation before it, with no write of
another hart between the one that LR read from and its own. -/
def scOrderly (evs : List MemEvent) (e : Nat) (ev : MemEvent) : Bool :=
  !(ev.kind == .write && ev.continues) ||
  (List.range e).any fun l => (evs[l]?).any fun lv =>
    (lv.reserves && lv.agent == ev.agent && lv.addr == ev.addr && lv.bytes == ev.bytes &&
      decide (lv.pos.before ev.pos)) &&
    (evs.all fun kv => !(kv.reserves && kv.agent == ev.agent) ||
      !decide (lv.pos.before kv.pos ∧ kv.pos.before ev.pos)) &&
    (accessBytes ev.addr ev.bytes).all fun a => (List.range e).all fun w => (evs[w]?).all fun wv =>
      decide (w ≤ (Execution.ofSequence evs).rf l a) || !wv.writesAt a || wv.agent == ev.agent || wv.agent == .host

/-- The list is the events of a machine that makes them one after another. -/
def orderly (evs : List MemEvent) : Bool :=
  decide (evs.Pairwise fun d e => inOrder d e = true) &&
  (List.range evs.length).all fun k => (evs[k]?).all fun ev =>
    readsLast evs k ev && afterHost evs k ev && scOrderly evs k ev

namespace Execution

variable {evs : List MemEvent}

theorem writes_ofSequence {w : Nat} {a : Word} : (ofSequence evs).Writes w a ↔ writesAt evs w a = true := by
  simp only [Writes, Is, writesAt, MemEvent.writesAt, ofSequence, Option.any_eq_true, Bool.and_eq_true, Bool.or_eq_true,
    beq_iff_eq, List.contains_iff_mem]
  exact ⟨fun ⟨ev, h, ha, hk⟩ => ⟨ev, h, hk, ha⟩, fun ⟨ev, h, hk, ha⟩ => ⟨ev, h, ha, hk⟩⟩

/-- What `orderly` says of the event numbered `k`. -/
theorem orderly_at (ho : orderly evs = true) {k : Nat} {ev : MemEvent} (h : evs[k]? = some ev) :
    readsLast evs k ev = true ∧ afterHost evs k ev = true ∧ scOrderly evs k ev = true := by
  have hk : k < evs.length := (List.getElem?_eq_some_iff.mp h).1
  have := (List.all_eq_true.mp (Bool.and_eq_true _ _ ▸ ho).2) k (List.mem_range.mpr hk)
  simpa [h, and_assoc] using this

/-- Of two events, the earlier in the list is in order with the later. -/
theorem orderly_pair (ho : orderly evs = true) {d e : Nat} {dv ev : MemEvent} (hd : evs[d]? = some dv)
    (he : evs[e]? = some ev) (h : d < e) : inOrder dv ev = true := by
  obtain ⟨hd', rfl⟩ := List.getElem?_eq_some_iff.mp hd
  obtain ⟨he', rfl⟩ := List.getElem?_eq_some_iff.mp he
  have hp : evs.Pairwise fun d e => inOrder d e = true := of_decide_eq_true (Bool.and_eq_true _ _ ▸ ho).1
  exact List.pairwise_iff_getElem.mp hp d e hd' he' h

/-- A read returns the last write before it. -/
theorem reads_last (ho : orderly evs = true) {r : Nat} {a : Word} (h : (ofSequence evs).Reads r a) :
    (ofSequence evs).rf r a < r ∧ (ofSequence evs).Writes ((ofSequence evs).rf r a) a ∧
    ∃ b, (ofSequence evs).ReadsByte r a b ∧ (ofSequence evs).WritesByte ((ofSequence evs).rf r a) a b := by
  obtain ⟨ev, hev, ha, hk⟩ := h
  have hr := (orderly_at ho hev).1
  have hk' : (ev.kind == EventKind.read || ev.kind == EventKind.rmw) = true := by simpa using hk
  simp only [readsLast, hk', Bool.not_true, Bool.false_or, List.all_eq_true] at hr
  obtain ⟨hlt, hw⟩ := Bool.and_eq_true _ _ ▸ hr a ha
  obtain ⟨wv, hwv, hv⟩ := (Option.any_eq_true _ _).mp hw
  obtain ⟨hwa, hv⟩ := Bool.and_eq_true _ _ ▸ hv
  refine ⟨of_decide_eq_true hlt, writes_ofSequence.mpr ((Option.any_eq_true _ _).mpr ⟨wv, hwv, hwa⟩), ?_⟩
  cases hrv : ev.readValue with
  | none => simp [hrv] at hv
  | some v =>
    cases hwr : wv.writeValue with
    | none => simp [hrv, hwr] at hv
    | some u =>
      simp only [hrv, hwr, beq_iff_eq] at hv
      exact ⟨_, ⟨ev, v, hev, hrv, rfl⟩, wv, u, hwv, hwr, hv.symm⟩

/-- No write lies between a read and the write it returns. -/
theorem le_rf {w r : Nat} {a : Word} (hw : (ofSequence evs).Writes w a) (h : w < r) : w ≤ (ofSequence evs).rf r a :=
  Nat.le_findGreatest (by omega) (writes_ofSequence.mp hw)

/-- A read sees every write before it in the list. -/
theorem sees_of_lt (ho : orderly evs = true) {w r : Nat} {a : Word} (hw : (ofSequence evs).Writes w a)
    (hr : (ofSequence evs).Reads r a) (h : w < r) : (ofSequence evs).Sees r w a := by
  rcases (le_rf hw h).lt_or_eq with hlt | heq
  · exact .inr ⟨writes_ofSequence.mp hw, writes_ofSequence.mp (reads_last ho hr).2.1, hlt⟩
  · exact .inl heq.symm

theorem po_lt (ho : orderly evs = true) {d e : Nat} (h : (ofSequence evs).po d e) : d < e := by
  obtain ⟨dv, ev, g, hd, he, hda, hea, hp⟩ := h
  rcases lt_trichotomy d e with hlt | rfl | hgt
  · exact hlt
  · obtain rfl := Option.some.inj (hd.symm.trans he)
    exact absurd hp (by simp [Position.before])
  · have := orderly_pair ho he hd hgt
    simp [inOrder, hda, hea] at this
    omega

theorem rel_le {a : Word} {w u : Nat} (h : ReleaseSeq (ofSequence evs) a w u) : w ≤ u := by
  induction h with
  | head => exact le_refl _
  | next _ hn _ _ ih => exact ih.trans hn.1.2.2.le

theorem sw_lt (ho : orderly evs = true) {d e : Nat} (h : (ofSequence evs).sw d e) : d < e := by
  obtain ⟨w, r, hw, ⟨a, _, hra, hs⟩, hr⟩ := h
  have h1 : d ≤ w := hw.elim (fun h => h.1.le) fun h => (po_lt ho h.2).le
  have h2 : r ≤ e := hr.elim (fun h => h.1.ge) fun h => (po_lt ho h.2).le
  have h3 := rel_le hs
  have h4 := (reads_last ho hra).1
  omega

theorem launched_lt (ho : orderly evs = true) {d e : Nat} (h : (ofSequence evs).launched d e) : d < e := by
  obtain ⟨dv, ev, g, hd, he, hea, hda | ⟨_, hf⟩⟩ := h
  · rcases lt_trichotomy d e with hlt | rfl | hgt
    · exact hlt
    · obtain rfl := Option.some.inj (hd.symm.trans he)
      exact absurd (hda.symm.trans hea) (by simp)
    · simpa [inOrder, hda, hea] using orderly_pair ho he hd hgt
  · exact hf.elim

/-- What happens before comes earlier in the list. -/
theorem hb_lt (ho : orderly evs = true) {d e : Nat} (h : (ofSequence evs).hb d e) : d < e := by
  induction h using Relation.TransGen.trans_induction_on with
  | trans _ _ h1 h2 => exact h1.trans h2
  | single h => exact h.elim (po_lt ho) fun h => h.elim (sw_lt ho) (launched_lt ho)

theorem isFence_ofSequence {d : Nat} (h : (ofSequence evs).IsFence d) :
    (evs[d]?).any (fun ev => ev.kind == .fence) = true := by
  obtain ⟨ev, hev, hk⟩ := h
  exact (Option.any_eq_true _ _).mpr ⟨ev, hev, by simp [hk]⟩

theorem wellFormed_ofSequence (ho : orderly evs = true) : (ofSequence evs).WellFormed where
  mo_writes := fun _ _ _ h => ⟨writes_ofSequence.mpr h.1, writes_ofSequence.mpr h.2.1⟩
  mo_irrefl := fun _ _ h => lt_irrefl _ h.2.2
  mo_trans := fun _ _ _ _ h1 h2 => ⟨h1.1, h2.2.1, h1.2.2.trans h2.2.2⟩
  mo_total := fun a d e hd he => by
    have hd := writes_ofSequence.mp hd
    have he := writes_ofSequence.mp he
    rcases lt_trichotomy d e with h | h | h
    · exact .inr (.inl ⟨hd, he, h⟩)
    · exact .inl h
    · exact .inr (.inr ⟨he, hd, h⟩)
  mo_first := fun a e h => by
    have hw := writes_ofSequence.mp h
    obtain ⟨ev, hev, ha, hk⟩ := h
    have hh := (orderly_at ho hev).2.1
    have hk' : (ev.kind == EventKind.write || ev.kind == EventKind.rmw) = true := by simpa using hk
    simp only [afterHost, hk', Bool.not_true, Bool.false_or, Bool.or_eq_true] at hh
    refine hh.imp (fun h => ⟨ev, hev, h⟩) fun h => ?_
    obtain ⟨w, hwe, hwv⟩ := List.any_eq_true.mp (List.all_eq_true.mp h a ha)
    obtain ⟨wv, hwv, hb⟩ := (Option.any_eq_true _ _).mp hwv
    obtain ⟨hb, hwa⟩ := Bool.and_eq_true _ _ ▸ hb
    exact ⟨w, ⟨wv, hwv, hb⟩, (Option.any_eq_true _ _).mpr ⟨wv, hwv, hwa⟩, hw, List.mem_range.mp hwe⟩
  rf_write := fun _ _ h => (reads_last ho h).2.1
  rf_value := fun _ _ h => (reads_last ho h).2.2
  launch_other := fun _ _ _ h => h.elim

theorem coherent_ofSequence (ho : orderly evs = true) : (ofSequence evs).Coherent where
  no_read_from_later := fun r a h hh => lt_asymm (hb_lt ho hh) (reads_last ho h).1
  write_write := fun d e a hd he h => ⟨writes_ofSequence.mp hd, writes_ofSequence.mp he, hb_lt ho h⟩
  read_read := fun d e a hd _ h hm => by
    have h1 := reads_last ho hd
    have h2 := le_rf h1.2.1 (h1.1.trans (hb_lt ho h))
    exact absurd hm.2.2 (not_lt.mpr h2)
  write_read := fun w r a hw hr h => sees_of_lt ho hw hr (hb_lt ho h)

theorem fencesOrdered_ofSequence (ho : orderly evs = true) : (ofSequence evs).FencesOrdered where
  irrefl := fun _ h => lt_irrefl _ h.2.2
  trans := fun _ _ _ h1 h2 => ⟨h1.1, h2.2.1, h1.2.2.trans h2.2.2⟩
  total := fun d e hd he => by
    have hd := isFence_ofSequence hd
    have he := isFence_ofSequence he
    rcases lt_trichotomy d e with h | h | h
    · exact .inr (.inl ⟨hd, he, h⟩)
    · exact .inl h
    · exact .inr (.inr ⟨he, hd, h⟩)
  hb_consistent := fun _ _ _ _ h hf => lt_asymm (hb_lt ho h) hf.2.2
  write_read := fun _ _ _ _ _ hw hr h1 _ hf _ h2 =>
    sees_of_lt ho hw hr ((po_lt ho h1).trans (hf.2.2.trans (po_lt ho h2)))
  write_write := fun _ _ _ _ _ hw hu h1 _ hf _ h2 =>
    ⟨writes_ofSequence.mp hw, writes_ofSequence.mp hu, (po_lt ho h1).trans (hf.2.2.trans (po_lt ho h2))⟩

theorem singleCopy_ofSequence (ho : orderly evs = true) : (ofSequence evs).SingleCopyAtomic where
  writes := fun _ _ _ _ _ _ _ _ _ _ hd he h => ⟨writes_ofSequence.mp hd, writes_ofSequence.mp he, h.2.2⟩
  reads := fun r w _ _ a b _ _ _ _ hra _ hrb hwb h => by
    have h1 := (reads_last ho hra).1
    have h2 : w ≤ (ofSequence evs).rf r a := h.elim (fun h => h.ge) fun h => h.2.2.le
    exact sees_of_lt ho hwb hrb (h2.trans_lt h1)

theorem scAtomic_ofSequence (ho : orderly evs = true) : (ofSequence evs).ScAtomic := by
  intro e ev h he hk hc hag
  have hs := (orderly_at ho he).2.2
  simp only [scOrderly, hk, hc, beq_self_eq_true, Bool.and_self, Bool.not_true, Bool.false_or] at hs
  obtain ⟨l, hle, hl⟩ := List.any_eq_true.mp hs
  obtain ⟨lv, hlv, hl⟩ := (Option.any_eq_true _ _).mp hl
  simp only [Bool.and_eq_true, beq_iff_eq, decide_eq_true_eq] at hl
  obtain ⟨⟨⟨⟨⟨⟨hres, hla⟩, haddr⟩, hbytes⟩, hpos⟩, hlast⟩, hw⟩ := hl
  refine ⟨l, ⟨lv, ev, hlv, he, hres, haddr, hbytes, ⟨lv, ev, h, hlv, he, hla.trans hag, hag, hpos⟩, ?_⟩, ?_⟩
  · rintro k kv hkv hkr ⟨lv', kv', g, hlv', hkv', hga, hgk, h1⟩ ⟨kv'', ev', g', hkv'', hev', _, _, h2⟩
    obtain rfl := Option.some.inj (hlv.symm.trans hlv')
    obtain rfl := Option.some.inj (hkv.symm.trans hkv')
    obtain rfl := Option.some.inj (hkv.symm.trans hkv'')
    obtain rfl := Option.some.inj (he.symm.trans hev')
    have := List.all_eq_true.mp hlast kv (List.mem_of_getElem? hkv)
    have hag' : kv.agent = ev.agent := hgk.trans (hga.symm.trans hla)
    simp only [hkr, hag', beq_self_eq_true, Bool.and_self, Bool.not_true, Bool.false_or, Bool.not_eq_true',
      decide_eq_false_iff_not] at this
    exact this ⟨h1, h2⟩
  · intro a ha w wv g hwv hg h1 h2
    have := List.all_eq_true.mp (List.all_eq_true.mp hw a ha) w (List.mem_range.mpr h2.2.2)
    rw [show evs[w]? = some wv from hwv] at this
    have hwa : wv.writesAt a = true := by simpa [writesAt, show evs[w]? = some wv from hwv] using h2.1
    have hnle : ¬ w ≤ (ofSequence evs).rf l a := not_le.mpr h1.2.2
    simpa [hnle, hwa, hg, hag] using this

/-- In an orderly list, what follows a data access is, or comes later than, an event of its hart after it. -/
theorem follows_ge (ho : orderly evs = true) {h n u : Nat} (hf : (ofSequence evs).Follows h n u) :
    ∃ f fv, (ofSequence evs).Is f fv ∧ fv.agent = .hart h ∧ Position.before ⟨n, 2⟩ fv.pos ∧ f ≤ u := by
  obtain ⟨f, fv, hf, ha, hn, heq | hb | ⟨_, e, hs, _, hp⟩⟩ := hf
  · exact ⟨f, fv, hf, ha, hn, heq.le⟩
  · exact ⟨f, fv, hf, ha, hn, (hb_lt ho hb).le⟩
  · exact ⟨f, fv, hf, ha, hn, (hs.2.2.trans (po_lt ho hp)).le⟩

/-- In an orderly list, what comes after an SC wherever its write is put is not earlier than every event of its hart after
it. -/
theorem comesAfterSc_ge (ho : orderly evs = true) {h n u : Nat} {a : Word} {bytes : List Word}
    (hc : (ofSequence evs).ComesAfterSc h n bytes a u) :
    ∃ f fv, (ofSequence evs).Is f fv ∧ fv.agent = .hart h ∧ Position.before ⟨n, 2⟩ fv.pos ∧ f ≤ u := by
  induction hc with
  | follows hu => exact follows_ge ho hu
  | unseen hr _ hm =>
    obtain ⟨f, fv, hf, ha, hn, hle⟩ := follows_ge ho hr
    refine ⟨f, fv, hf, ha, hn, hle.trans (not_lt.mp fun hur => ?_)⟩
    exact absurd (le_rf (writes_ofSequence.mpr hm.2.1) hur) (not_le.mpr hm.2.2)
  | later _ hm ih =>
    obtain ⟨f, fv, hf, ha, hn, hle⟩ := ih
    exact ⟨f, fv, hf, ha, hn, hle.trans hm.2.2.le⟩
  | whole _ _ _ _ _ _ _ ih => exact ih

/-- An orderly list of events is an execution the memory model admits (R110, R122 to R126, R613). -/
theorem consistent_ofSequence (ho : orderly evs = true) : (ofSequence evs).Consistent where
  wellFormed := wellFormed_ofSequence ho
  coherent := coherent_ofSequence ho
  rmwAtomic := fun e ev a he hk ha => by
    have hr := reads_last ho ⟨ev, he, ha, .inr hk⟩
    have hw : (ofSequence evs).Writes e a := ⟨ev, he, ha, .inr hk⟩
    refine ⟨⟨writes_ofSequence.mp hr.2.1, writes_ofSequence.mp hw, hr.1⟩, fun v h1 h2 => ?_⟩
    exact absurd h1.2.2 (not_lt.mpr (le_rf (writes_ofSequence.mpr h2.1) h2.2.2))
  fencesOrdered := fencesOrdered_ofSequence ho
  singleCopy := singleCopy_ofSequence ho
  scAtomic := scAtomic_ofSequence ho

end Execution

end Sys2Proof.Machine
end

