-- ==== Sys2Proof/Laws/PerInstr.lean ====
section
/-! SUPPORT. One statement about every instruction as syntax, a lemma for each constructor: an encoding is as long as the
instruction says (R150), and an expansion is a 32-bit instruction that expands to itself (R10, R700). -/

namespace Sys2Proof.Laws.Length

/-- The bytes of the encoding are `len` of them, and the expansion is a base instruction. -/
def Statement (i : Instr) : Prop :=
  (encode i).bytes.length = i.len ∧ (expand i).len = 4 ∧ expand (expand i) = expand i

theorem lui (rd : XReg) (imm : BitVec 20) : Statement (.lui rd imm) := ⟨rfl, rfl, rfl⟩

theorem auipc (rd : XReg) (imm : BitVec 20) : Statement (.auipc rd imm) := ⟨rfl, rfl, rfl⟩

theorem jal (rd : XReg) (offset : BitVec 21) : Statement (.jal rd offset) := ⟨rfl, rfl, rfl⟩

theorem jalr (rd : XReg) (rs1 : XReg) (imm : BitVec 12) : Statement (.jalr rd rs1 imm) := ⟨rfl, rfl, rfl⟩

theorem beq (rs1 : XReg) (rs2 : XReg) (offset : BitVec 13) : Statement (.beq rs1 rs2 offset) := ⟨rfl, rfl, rfl⟩

theorem bne (rs1 : XReg) (rs2 : XReg) (offset : BitVec 13) : Statement (.bne rs1 rs2 offset) := ⟨rfl, rfl, rfl⟩

theorem blt (rs1 : XReg) (rs2 : XReg) (offset : BitVec 13) : Statement (.blt rs1 rs2 offset) := ⟨rfl, rfl, rfl⟩

theorem bge (rs1 : XReg) (rs2 : XReg) (offset : BitVec 13) : Statement (.bge rs1 rs2 offset) := ⟨rfl, rfl, rfl⟩

theorem bltu (rs1 : XReg) (rs2 : XReg) (offset : BitVec 13) : Statement (.bltu rs1 rs2 offset) := ⟨rfl, rfl, rfl⟩

theorem bgeu (rs1 : XReg) (rs2 : XReg) (offset : BitVec 13) : Statement (.bgeu rs1 rs2 offset) := ⟨rfl, rfl, rfl⟩

theorem lb (rd : XReg) (rs1 : XReg) (imm : BitVec 12) : Statement (.lb rd rs1 imm) := ⟨rfl, rfl, rfl⟩

theorem lh (rd : XReg) (rs1 : XReg) (imm : BitVec 12) : Statement (.lh rd rs1 imm) := ⟨rfl, rfl, rfl⟩

theorem lw (rd : XReg) (rs1 : XReg) (imm : BitVec 12) : Statement (.lw rd rs1 imm) := ⟨rfl, rfl, rfl⟩

theorem ld (rd : XReg) (rs1 : XReg) (imm : BitVec 12) : Statement (.ld rd rs1 imm) := ⟨rfl, rfl, rfl⟩

theorem lbu (rd : XReg) (rs1 : XReg) (imm : BitVec 12) : Statement (.lbu rd rs1 imm) := ⟨rfl, rfl, rfl⟩

theorem lhu (rd : XReg) (rs1 : XReg) (imm : BitVec 12) : Statement (.lhu rd rs1 imm) := ⟨rfl, rfl, rfl⟩

theorem lwu (rd : XReg) (rs1 : XReg) (imm : BitVec 12) : Statement (.lwu rd rs1 imm) := ⟨rfl, rfl, rfl⟩

theorem sb (rs2 : XReg) (rs1 : XReg) (imm : BitVec 12) : Statement (.sb rs2 rs1 imm) := ⟨rfl, rfl, rfl⟩

theorem sh (rs2 : XReg) (rs1 : XReg) (imm : BitVec 12) : Statement (.sh rs2 rs1 imm) := ⟨rfl, rfl, rfl⟩

theorem sw (rs2 : XReg) (rs1 : XReg) (imm : BitVec 12) : Statement (.sw rs2 rs1 imm) := ⟨rfl, rfl, rfl⟩

theorem sd (rs2 : XReg) (rs1 : XReg) (imm : BitVec 12) : Statement (.sd rs2 rs1 imm) := ⟨rfl, rfl, rfl⟩

theorem addi (rd : XReg) (rs1 : XReg) (imm : BitVec 12) : Statement (.addi rd rs1 imm) := ⟨rfl, rfl, rfl⟩

theorem slti (rd : XReg) (rs1 : XReg) (imm : BitVec 12) : Statement (.slti rd rs1 imm) := ⟨rfl, rfl, rfl⟩

theorem sltiu (rd : XReg) (rs1 : XReg) (imm : BitVec 12) : Statement (.sltiu rd rs1 imm) := ⟨rfl, rfl, rfl⟩

theorem xori (rd : XReg) (rs1 : XReg) (imm : BitVec 12) : Statement (.xori rd rs1 imm) := ⟨rfl, rfl, rfl⟩

theorem ori (rd : XReg) (rs1 : XReg) (imm : BitVec 12) : Statement (.ori rd rs1 imm) := ⟨rfl, rfl, rfl⟩

theorem andi (rd : XReg) (rs1 : XReg) (imm : BitVec 12) : Statement (.andi rd rs1 imm) := ⟨rfl, rfl, rfl⟩

theorem slli (rd : XReg) (rs1 : XReg) (shamt : BitVec 6) : Statement (.slli rd rs1 shamt) := ⟨rfl, rfl, rfl⟩

theorem srli (rd : XReg) (rs1 : XReg) (shamt : BitVec 6) : Statement (.srli rd rs1 shamt) := ⟨rfl, rfl, rfl⟩

theorem srai (rd : XReg) (rs1 : XReg) (shamt : BitVec 6) : Statement (.srai rd rs1 shamt) := ⟨rfl, rfl, rfl⟩

theorem add (rd : XReg) (rs1 : XReg) (rs2 : XReg) : Statement (.add rd rs1 rs2) := ⟨rfl, rfl, rfl⟩

theorem sub (rd : XReg) (rs1 : XReg) (rs2 : XReg) : Statement (.sub rd rs1 rs2) := ⟨rfl, rfl, rfl⟩

theorem sll (rd : XReg) (rs1 : XReg) (rs2 : XReg) : Statement (.sll rd rs1 rs2) := ⟨rfl, rfl, rfl⟩

theorem slt (rd : XReg) (rs1 : XReg) (rs2 : XReg) : Statement (.slt rd rs1 rs2) := ⟨rfl, rfl, rfl⟩

theorem sltu (rd : XReg) (rs1 : XReg) (rs2 : XReg) : Statement (.sltu rd rs1 rs2) := ⟨rfl, rfl, rfl⟩

theorem xor (rd : XReg) (rs1 : XReg) (rs2 : XReg) : Statement (.xor rd rs1 rs2) := ⟨rfl, rfl, rfl⟩

theorem srl (rd : XReg) (rs1 : XReg) (rs2 : XReg) : Statement (.srl rd rs1 rs2) := ⟨rfl, rfl, rfl⟩

theorem sra (rd : XReg) (rs1 : XReg) (rs2 : XReg) : Statement (.sra rd rs1 rs2) := ⟨rfl, rfl, rfl⟩

theorem or (rd : XReg) (rs1 : XReg) (rs2 : XReg) : Statement (.or rd rs1 rs2) := ⟨rfl, rfl, rfl⟩

theorem and (rd : XReg) (rs1 : XReg) (rs2 : XReg) : Statement (.and rd rs1 rs2) := ⟨rfl, rfl, rfl⟩

theorem fence (fm : BitVec 4) (pred : BitVec 4) (succ : BitVec 4) (rs1 : XReg) (rd : XReg) : Statement (.fence fm pred succ rs1 rd) := ⟨rfl, rfl, rfl⟩

theorem fenceI (imm : BitVec 12) (rs1 : XReg) (rd : XReg) : Statement (.fenceI imm rs1 rd) := ⟨rfl, rfl, rfl⟩

theorem ecall : Statement .ecall := ⟨rfl, rfl, rfl⟩

theorem ebreak : Statement .ebreak := ⟨rfl, rfl, rfl⟩

theorem addiw (rd : XReg) (rs1 : XReg) (imm : BitVec 12) : Statement (.addiw rd rs1 imm) := ⟨rfl, rfl, rfl⟩

theorem slliw (rd : XReg) (rs1 : XReg) (shamt : BitVec 5) : Statement (.slliw rd rs1 shamt) := ⟨rfl, rfl, rfl⟩

theorem srliw (rd : XReg) (rs1 : XReg) (shamt : BitVec 5) : Statement (.srliw rd rs1 shamt) := ⟨rfl, rfl, rfl⟩

theorem sraiw (rd : XReg) (rs1 : XReg) (shamt : BitVec 5) : Statement (.sraiw rd rs1 shamt) := ⟨rfl, rfl, rfl⟩

theorem addw (rd : XReg) (rs1 : XReg) (rs2 : XReg) : Statement (.addw rd rs1 rs2) := ⟨rfl, rfl, rfl⟩

theorem subw (rd : XReg) (rs1 : XReg) (rs2 : XReg) : Statement (.subw rd rs1 rs2) := ⟨rfl, rfl, rfl⟩

theorem sllw (rd : XReg) (rs1 : XReg) (rs2 : XReg) : Statement (.sllw rd rs1 rs2) := ⟨rfl, rfl, rfl⟩

theorem srlw (rd : XReg) (rs1 : XReg) (rs2 : XReg) : Statement (.srlw rd rs1 rs2) := ⟨rfl, rfl, rfl⟩

theorem sraw (rd : XReg) (rs1 : XReg) (rs2 : XReg) : Statement (.sraw rd rs1 rs2) := ⟨rfl, rfl, rfl⟩

theorem mul (rd : XReg) (rs1 : XReg) (rs2 : XReg) : Statement (.mul rd rs1 rs2) := ⟨rfl, rfl, rfl⟩

theorem mulh (rd : XReg) (rs1 : XReg) (rs2 : XReg) : Statement (.mulh rd rs1 rs2) := ⟨rfl, rfl, rfl⟩

theorem mulhsu (rd : XReg) (rs1 : XReg) (rs2 : XReg) : Statement (.mulhsu rd rs1 rs2) := ⟨rfl, rfl, rfl⟩

theorem mulhu (rd : XReg) (rs1 : XReg) (rs2 : XReg) : Statement (.mulhu rd rs1 rs2) := ⟨rfl, rfl, rfl⟩

theorem div (rd : XReg) (rs1 : XReg) (rs2 : XReg) : Statement (.div rd rs1 rs2) := ⟨rfl, rfl, rfl⟩

theorem divu (rd : XReg) (rs1 : XReg) (rs2 : XReg) : Statement (.divu rd rs1 rs2) := ⟨rfl, rfl, rfl⟩

theorem rem (rd : XReg) (rs1 : XReg) (rs2 : XReg) : Statement (.rem rd rs1 rs2) := ⟨rfl, rfl, rfl⟩

theorem remu (rd : XReg) (rs1 : XReg) (rs2 : XReg) : Statement (.remu rd rs1 rs2) := ⟨rfl, rfl, rfl⟩

theorem mulw (rd : XReg) (rs1 : XReg) (rs2 : XReg) : Statement (.mulw rd rs1 rs2) := ⟨rfl, rfl, rfl⟩

theorem divw (rd : XReg) (rs1 : XReg) (rs2 : XReg) : Statement (.divw rd rs1 rs2) := ⟨rfl, rfl, rfl⟩

theorem divuw (rd : XReg) (rs1 : XReg) (rs2 : XReg) : Statement (.divuw rd rs1 rs2) := ⟨rfl, rfl, rfl⟩

theorem remw (rd : XReg) (rs1 : XReg) (rs2 : XReg) : Statement (.remw rd rs1 rs2) := ⟨rfl, rfl, rfl⟩

theorem remuw (rd : XReg) (rs1 : XReg) (rs2 : XReg) : Statement (.remuw rd rs1 rs2) := ⟨rfl, rfl, rfl⟩

theorem lrW (rd : XReg) (rs1 : XReg) (aq : Bool) (rl : Bool) : Statement (.lrW rd rs1 aq rl) := ⟨rfl, rfl, rfl⟩

theorem scW (rd : XReg) (rs1 : XReg) (rs2 : XReg) (aq : Bool) (rl : Bool) : Statement (.scW rd rs1 rs2 aq rl) := ⟨rfl, rfl, rfl⟩

theorem lrD (rd : XReg) (rs1 : XReg) (aq : Bool) (rl : Bool) : Statement (.lrD rd rs1 aq rl) := ⟨rfl, rfl, rfl⟩

theorem scD (rd : XReg) (rs1 : XReg) (rs2 : XReg) (aq : Bool) (rl : Bool) : Statement (.scD rd rs1 rs2 aq rl) := ⟨rfl, rfl, rfl⟩

theorem amoswapW (rd : XReg) (rs1 : XReg) (rs2 : XReg) (aq : Bool) (rl : Bool) : Statement (.amoswapW rd rs1 rs2 aq rl) := ⟨rfl, rfl, rfl⟩

theorem amoaddW (rd : XReg) (rs1 : XReg) (rs2 : XReg) (aq : Bool) (rl : Bool) : Statement (.amoaddW rd rs1 rs2 aq rl) := ⟨rfl, rfl, rfl⟩

theorem amoxorW (rd : XReg) (rs1 : XReg) (rs2 : XReg) (aq : Bool) (rl : Bool) : Statement (.amoxorW rd rs1 rs2 aq rl) := ⟨rfl, rfl, rfl⟩

theorem amoandW (rd : XReg) (rs1 : XReg) (rs2 : XReg) (aq : Bool) (rl : Bool) : Statement (.amoandW rd rs1 rs2 aq rl) := ⟨rfl, rfl, rfl⟩

theorem amoorW (rd : XReg) (rs1 : XReg) (rs2 : XReg) (aq : Bool) (rl : Bool) : Statement (.amoorW rd rs1 rs2 aq rl) := ⟨rfl, rfl, rfl⟩

theorem amominW (rd : XReg) (rs1 : XReg) (rs2 : XReg) (aq : Bool) (rl : Bool) : Statement (.amominW rd rs1 rs2 aq rl) := ⟨rfl, rfl, rfl⟩

theorem amomaxW (rd : XReg) (rs1 : XReg) (rs2 : XReg) (aq : Bool) (rl : Bool) : Statement (.amomaxW rd rs1 rs2 aq rl) := ⟨rfl, rfl, rfl⟩

theorem amominuW (rd : XReg) (rs1 : XReg) (rs2 : XReg) (aq : Bool) (rl : Bool) : Statement (.amominuW rd rs1 rs2 aq rl) := ⟨rfl, rfl, rfl⟩

theorem amomaxuW (rd : XReg) (rs1 : XReg) (rs2 : XReg) (aq : Bool) (rl : Bool) : Statement (.amomaxuW rd rs1 rs2 aq rl) := ⟨rfl, rfl, rfl⟩

theorem amoswapD (rd : XReg) (rs1 : XReg) (rs2 : XReg) (aq : Bool) (rl : Bool) : Statement (.amoswapD rd rs1 rs2 aq rl) := ⟨rfl, rfl, rfl⟩

theorem amoaddD (rd : XReg) (rs1 : XReg) (rs2 : XReg) (aq : Bool) (rl : Bool) : Statement (.amoaddD rd rs1 rs2 aq rl) := ⟨rfl, rfl, rfl⟩

theorem amoxorD (rd : XReg) (rs1 : XReg) (rs2 : XReg) (aq : Bool) (rl : Bool) : Statement (.amoxorD rd rs1 rs2 aq rl) := ⟨rfl, rfl, rfl⟩

theorem amoandD (rd : XReg) (rs1 : XReg) (rs2 : XReg) (aq : Bool) (rl : Bool) : Statement (.amoandD rd rs1 rs2 aq rl) := ⟨rfl, rfl, rfl⟩

theorem amoorD (rd : XReg) (rs1 : XReg) (rs2 : XReg) (aq : Bool) (rl : Bool) : Statement (.amoorD rd rs1 rs2 aq rl) := ⟨rfl, rfl, rfl⟩

theorem amominD (rd : XReg) (rs1 : XReg) (rs2 : XReg) (aq : Bool) (rl : Bool) : Statement (.amominD rd rs1 rs2 aq rl) := ⟨rfl, rfl, rfl⟩

theorem amomaxD (rd : XReg) (rs1 : XReg) (rs2 : XReg) (aq : Bool) (rl : Bool) : Statement (.amomaxD rd rs1 rs2 aq rl) := ⟨rfl, rfl, rfl⟩

theorem amominuD (rd : XReg) (rs1 : XReg) (rs2 : XReg) (aq : Bool) (rl : Bool) : Statement (.amominuD rd rs1 rs2 aq rl) := ⟨rfl, rfl, rfl⟩

theorem amomaxuD (rd : XReg) (rs1 : XReg) (rs2 : XReg) (aq : Bool) (rl : Bool) : Statement (.amomaxuD rd rs1 rs2 aq rl) := ⟨rfl, rfl, rfl⟩

theorem csrrw (rd : XReg) (csr : Csr) (rs1 : XReg) : Statement (.csrrw rd csr rs1) := ⟨rfl, rfl, rfl⟩

theorem csrrs (rd : XReg) (csr : Csr) (rs1 : XReg) : Statement (.csrrs rd csr rs1) := ⟨rfl, rfl, rfl⟩

theorem csrrc (rd : XReg) (csr : Csr) (rs1 : XReg) : Statement (.csrrc rd csr rs1) := ⟨rfl, rfl, rfl⟩

theorem csrrwi (rd : XReg) (csr : Csr) (uimm : BitVec 5) : Statement (.csrrwi rd csr uimm) := ⟨rfl, rfl, rfl⟩

theorem csrrsi (rd : XReg) (csr : Csr) (uimm : BitVec 5) : Statement (.csrrsi rd csr uimm) := ⟨rfl, rfl, rfl⟩

theorem csrrci (rd : XReg) (csr : Csr) (uimm : BitVec 5) : Statement (.csrrci rd csr uimm) := ⟨rfl, rfl, rfl⟩

theorem flw (frd : FReg) (rs1 : XReg) (imm : BitVec 12) : Statement (.flw frd rs1 imm) := ⟨rfl, rfl, rfl⟩

theorem fsw (frs2 : FReg) (rs1 : XReg) (imm : BitVec 12) : Statement (.fsw frs2 rs1 imm) := ⟨rfl, rfl, rfl⟩

theorem fmaddS (frd : FReg) (frs1 : FReg) (frs2 : FReg) (frs3 : FReg) (rm : Rm) : Statement (.fmaddS frd frs1 frs2 frs3 rm) := ⟨rfl, rfl, rfl⟩

theorem fmsubS (frd : FReg) (frs1 : FReg) (frs2 : FReg) (frs3 : FReg) (rm : Rm) : Statement (.fmsubS frd frs1 frs2 frs3 rm) := ⟨rfl, rfl, rfl⟩

theorem fnmsubS (frd : FReg) (frs1 : FReg) (frs2 : FReg) (frs3 : FReg) (rm : Rm) : Statement (.fnmsubS frd frs1 frs2 frs3 rm) := ⟨rfl, rfl, rfl⟩

theorem fnmaddS (frd : FReg) (frs1 : FReg) (frs2 : FReg) (frs3 : FReg) (rm : Rm) : Statement (.fnmaddS frd frs1 frs2 frs3 rm) := ⟨rfl, rfl, rfl⟩

theorem faddS (frd : FReg) (frs1 : FReg) (frs2 : FReg) (rm : Rm) : Statement (.faddS frd frs1 frs2 rm) := ⟨rfl, rfl, rfl⟩

theorem fsubS (frd : FReg) (frs1 : FReg) (frs2 : FReg) (rm : Rm) : Statement (.fsubS frd frs1 frs2 rm) := ⟨rfl, rfl, rfl⟩

theorem fmulS (frd : FReg) (frs1 : FReg) (frs2 : FReg) (rm : Rm) : Statement (.fmulS frd frs1 frs2 rm) := ⟨rfl, rfl, rfl⟩

theorem fdivS (frd : FReg) (frs1 : FReg) (frs2 : FReg) (rm : Rm) : Statement (.fdivS frd frs1 frs2 rm) := ⟨rfl, rfl, rfl⟩

theorem fsqrtS (frd : FReg) (frs1 : FReg) (rm : Rm) : Statement (.fsqrtS frd frs1 rm) := ⟨rfl, rfl, rfl⟩

theorem fsgnjS (frd : FReg) (frs1 : FReg) (frs2 : FReg) : Statement (.fsgnjS frd frs1 frs2) := ⟨rfl, rfl, rfl⟩

theorem fsgnjnS (frd : FReg) (frs1 : FReg) (frs2 : FReg) : Statement (.fsgnjnS frd frs1 frs2) := ⟨rfl, rfl, rfl⟩

theorem fsgnjxS (frd : FReg) (frs1 : FReg) (frs2 : FReg) : Statement (.fsgnjxS frd frs1 frs2) := ⟨rfl, rfl, rfl⟩

theorem fminS (frd : FReg) (frs1 : FReg) (frs2 : FReg) : Statement (.fminS frd frs1 frs2) := ⟨rfl, rfl, rfl⟩

theorem fmaxS (frd : FReg) (frs1 : FReg) (frs2 : FReg) : Statement (.fmaxS frd frs1 frs2) := ⟨rfl, rfl, rfl⟩

theorem fcvtWS (rd : XReg) (frs1 : FReg) (rm : Rm) : Statement (.fcvtWS rd frs1 rm) := ⟨rfl, rfl, rfl⟩

theorem fcvtWUS (rd : XReg) (frs1 : FReg) (rm : Rm) : Statement (.fcvtWUS rd frs1 rm) := ⟨rfl, rfl, rfl⟩

theorem fcvtLS (rd : XReg) (frs1 : FReg) (rm : Rm) : Statement (.fcvtLS rd frs1 rm) := ⟨rfl, rfl, rfl⟩

theorem fcvtLUS (rd : XReg) (frs1 : FReg) (rm : Rm) : Statement (.fcvtLUS rd frs1 rm) := ⟨rfl, rfl, rfl⟩

theorem fmvXW (rd : XReg) (frs1 : FReg) : Statement (.fmvXW rd frs1) := ⟨rfl, rfl, rfl⟩

theorem feqS (rd : XReg) (frs1 : FReg) (frs2 : FReg) : Statement (.feqS rd frs1 frs2) := ⟨rfl, rfl, rfl⟩

theorem fltS (rd : XReg) (frs1 : FReg) (frs2 : FReg) : Statement (.fltS rd frs1 frs2) := ⟨rfl, rfl, rfl⟩

theorem fleS (rd : XReg) (frs1 : FReg) (frs2 : FReg) : Statement (.fleS rd frs1 frs2) := ⟨rfl, rfl, rfl⟩

theorem fclassS (rd : XReg) (frs1 : FReg) : Statement (.fclassS rd frs1) := ⟨rfl, rfl, rfl⟩

theorem fcvtSW (frd : FReg) (rs1 : XReg) (rm : Rm) : Statement (.fcvtSW frd rs1 rm) := ⟨rfl, rfl, rfl⟩

theorem fcvtSWU (frd : FReg) (rs1 : XReg) (rm : Rm) : Statement (.fcvtSWU frd rs1 rm) := ⟨rfl, rfl, rfl⟩

theorem fcvtSL (frd : FReg) (rs1 : XReg) (rm : Rm) : Statement (.fcvtSL frd rs1 rm) := ⟨rfl, rfl, rfl⟩

theorem fcvtSLU (frd : FReg) (rs1 : XReg) (rm : Rm) : Statement (.fcvtSLU frd rs1 rm) := ⟨rfl, rfl, rfl⟩

theorem fmvWX (frd : FReg) (rs1 : XReg) : Statement (.fmvWX frd rs1) := ⟨rfl, rfl, rfl⟩

theorem fld (frd : FReg) (rs1 : XReg) (imm : BitVec 12) : Statement (.fld frd rs1 imm) := ⟨rfl, rfl, rfl⟩

theorem fsd (frs2 : FReg) (rs1 : XReg) (imm : BitVec 12) : Statement (.fsd frs2 rs1 imm) := ⟨rfl, rfl, rfl⟩

theorem fmaddD (frd : FReg) (frs1 : FReg) (frs2 : FReg) (frs3 : FReg) (rm : Rm) : Statement (.fmaddD frd frs1 frs2 frs3 rm) := ⟨rfl, rfl, rfl⟩

theorem fmsubD (frd : FReg) (frs1 : FReg) (frs2 : FReg) (frs3 : FReg) (rm : Rm) : Statement (.fmsubD frd frs1 frs2 frs3 rm) := ⟨rfl, rfl, rfl⟩

theorem fnmsubD (frd : FReg) (frs1 : FReg) (frs2 : FReg) (frs3 : FReg) (rm : Rm) : Statement (.fnmsubD frd frs1 frs2 frs3 rm) := ⟨rfl, rfl, rfl⟩

theorem fnmaddD (frd : FReg) (frs1 : FReg) (frs2 : FReg) (frs3 : FReg) (rm : Rm) : Statement (.fnmaddD frd frs1 frs2 frs3 rm) := ⟨rfl, rfl, rfl⟩

theorem faddD (frd : FReg) (frs1 : FReg) (frs2 : FReg) (rm : Rm) : Statement (.faddD frd frs1 frs2 rm) := ⟨rfl, rfl, rfl⟩

theorem fsubD (frd : FReg) (frs1 : FReg) (frs2 : FReg) (rm : Rm) : Statement (.fsubD frd frs1 frs2 rm) := ⟨rfl, rfl, rfl⟩

theorem fmulD (frd : FReg) (frs1 : FReg) (frs2 : FReg) (rm : Rm) : Statement (.fmulD frd frs1 frs2 rm) := ⟨rfl, rfl, rfl⟩

theorem fdivD (frd : FReg) (frs1 : FReg) (frs2 : FReg) (rm : Rm) : Statement (.fdivD frd frs1 frs2 rm) := ⟨rfl, rfl, rfl⟩

theorem fsqrtD (frd : FReg) (frs1 : FReg) (rm : Rm) : Statement (.fsqrtD frd frs1 rm) := ⟨rfl, rfl, rfl⟩

theorem fsgnjD (frd : FReg) (frs1 : FReg) (frs2 : FReg) : Statement (.fsgnjD frd frs1 frs2) := ⟨rfl, rfl, rfl⟩

theorem fsgnjnD (frd : FReg) (frs1 : FReg) (frs2 : FReg) : Statement (.fsgnjnD frd frs1 frs2) := ⟨rfl, rfl, rfl⟩

theorem fsgnjxD (frd : FReg) (frs1 : FReg) (frs2 : FReg) : Statement (.fsgnjxD frd frs1 frs2) := ⟨rfl, rfl, rfl⟩

theorem fminD (frd : FReg) (frs1 : FReg) (frs2 : FReg) : Statement (.fminD frd frs1 frs2) := ⟨rfl, rfl, rfl⟩

theorem fmaxD (frd : FReg) (frs1 : FReg) (frs2 : FReg) : Statement (.fmaxD frd frs1 frs2) := ⟨rfl, rfl, rfl⟩

theorem fcvtSD (frd : FReg) (frs1 : FReg) (rm : Rm) : Statement (.fcvtSD frd frs1 rm) := ⟨rfl, rfl, rfl⟩

theorem fcvtDS (frd : FReg) (frs1 : FReg) (rm : Rm) : Statement (.fcvtDS frd frs1 rm) := ⟨rfl, rfl, rfl⟩

theorem feqD (rd : XReg) (frs1 : FReg) (frs2 : FReg) : Statement (.feqD rd frs1 frs2) := ⟨rfl, rfl, rfl⟩

theorem fltD (rd : XReg) (frs1 : FReg) (frs2 : FReg) : Statement (.fltD rd frs1 frs2) := ⟨rfl, rfl, rfl⟩

theorem fleD (rd : XReg) (frs1 : FReg) (frs2 : FReg) : Statement (.fleD rd frs1 frs2) := ⟨rfl, rfl, rfl⟩

theorem fclassD (rd : XReg) (frs1 : FReg) : Statement (.fclassD rd frs1) := ⟨rfl, rfl, rfl⟩

theorem fcvtWD (rd : XReg) (frs1 : FReg) (rm : Rm) : Statement (.fcvtWD rd frs1 rm) := ⟨rfl, rfl, rfl⟩

theorem fcvtWUD (rd : XReg) (frs1 : FReg) (rm : Rm) : Statement (.fcvtWUD rd frs1 rm) := ⟨rfl, rfl, rfl⟩

theorem fcvtLD (rd : XReg) (frs1 : FReg) (rm : Rm) : Statement (.fcvtLD rd frs1 rm) := ⟨rfl, rfl, rfl⟩

theorem fcvtLUD (rd : XReg) (frs1 : FReg) (rm : Rm) : Statement (.fcvtLUD rd frs1 rm) := ⟨rfl, rfl, rfl⟩

theorem fmvXD (rd : XReg) (frs1 : FReg) : Statement (.fmvXD rd frs1) := ⟨rfl, rfl, rfl⟩

theorem fcvtDW (frd : FReg) (rs1 : XReg) (rm : Rm) : Statement (.fcvtDW frd rs1 rm) := ⟨rfl, rfl, rfl⟩

theorem fcvtDWU (frd : FReg) (rs1 : XReg) (rm : Rm) : Statement (.fcvtDWU frd rs1 rm) := ⟨rfl, rfl, rfl⟩

theorem fcvtDL (frd : FReg) (rs1 : XReg) (rm : Rm) : Statement (.fcvtDL frd rs1 rm) := ⟨rfl, rfl, rfl⟩

theorem fcvtDLU (frd : FReg) (rs1 : XReg) (rm : Rm) : Statement (.fcvtDLU frd rs1 rm) := ⟨rfl, rfl, rfl⟩

theorem fmvDX (frd : FReg) (rs1 : XReg) : Statement (.fmvDX frd rs1) := ⟨rfl, rfl, rfl⟩

theorem cAddi4spn (rd : XReg) (nzuimm : BitVec 10) : Statement (.cAddi4spn rd nzuimm) := ⟨rfl, rfl, rfl⟩

theorem cFld (frd : FReg) (rs1 : XReg) (uimm : BitVec 8) : Statement (.cFld frd rs1 uimm) := ⟨rfl, rfl, rfl⟩

theorem cLw (rd : XReg) (rs1 : XReg) (uimm : BitVec 7) : Statement (.cLw rd rs1 uimm) := ⟨rfl, rfl, rfl⟩

theorem cLd (rd : XReg) (rs1 : XReg) (uimm : BitVec 8) : Statement (.cLd rd rs1 uimm) := ⟨rfl, rfl, rfl⟩

theorem cFsd (frs2 : FReg) (rs1 : XReg) (uimm : BitVec 8) : Statement (.cFsd frs2 rs1 uimm) := ⟨rfl, rfl, rfl⟩

theorem cSw (rs2 : XReg) (rs1 : XReg) (uimm : BitVec 7) : Statement (.cSw rs2 rs1 uimm) := ⟨rfl, rfl, rfl⟩

theorem cSd (rs2 : XReg) (rs1 : XReg) (uimm : BitVec 8) : Statement (.cSd rs2 rs1 uimm) := ⟨rfl, rfl, rfl⟩

theorem cNop (imm : BitVec 6) : Statement (.cNop imm) := ⟨rfl, rfl, rfl⟩

theorem cAddi (rd : XReg) (imm : BitVec 6) : Statement (.cAddi rd imm) := ⟨rfl, rfl, rfl⟩

theorem cAddiw (rd : XReg) (imm : BitVec 6) : Statement (.cAddiw rd imm) := ⟨rfl, rfl, rfl⟩

theorem cLi (rd : XReg) (imm : BitVec 6) : Statement (.cLi rd imm) := ⟨rfl, rfl, rfl⟩

theorem cAddi16sp (nzimm : BitVec 10) : Statement (.cAddi16sp nzimm) := ⟨rfl, rfl, rfl⟩

theorem cLui (rd : XReg) (nzimm : BitVec 18) : Statement (.cLui rd nzimm) := ⟨rfl, rfl, rfl⟩

theorem cSrli (rd : XReg) (shamt : BitVec 6) : Statement (.cSrli rd shamt) := ⟨rfl, rfl, rfl⟩

theorem cSrai (rd : XReg) (shamt : BitVec 6) : Statement (.cSrai rd shamt) := ⟨rfl, rfl, rfl⟩

theorem cAndi (rd : XReg) (imm : BitVec 6) : Statement (.cAndi rd imm) := ⟨rfl, rfl, rfl⟩

theorem cSub (rd : XReg) (rs2 : XReg) : Statement (.cSub rd rs2) := ⟨rfl, rfl, rfl⟩

theorem cXor (rd : XReg) (rs2 : XReg) : Statement (.cXor rd rs2) := ⟨rfl, rfl, rfl⟩

theorem cOr (rd : XReg) (rs2 : XReg) : Statement (.cOr rd rs2) := ⟨rfl, rfl, rfl⟩

theorem cAnd (rd : XReg) (rs2 : XReg) : Statement (.cAnd rd rs2) := ⟨rfl, rfl, rfl⟩

theorem cSubw (rd : XReg) (rs2 : XReg) : Statement (.cSubw rd rs2) := ⟨rfl, rfl, rfl⟩

theorem cAddw (rd : XReg) (rs2 : XReg) : Statement (.cAddw rd rs2) := ⟨rfl, rfl, rfl⟩

theorem cJ (offset : BitVec 12) : Statement (.cJ offset) := ⟨rfl, rfl, rfl⟩

theorem cBeqz (rs1 : XReg) (offset : BitVec 9) : Statement (.cBeqz rs1 offset) := ⟨rfl, rfl, rfl⟩

theorem cBnez (rs1 : XReg) (offset : BitVec 9) : Statement (.cBnez rs1 offset) := ⟨rfl, rfl, rfl⟩

theorem cSlli (rd : XReg) (shamt : BitVec 6) : Statement (.cSlli rd shamt) := ⟨rfl, rfl, rfl⟩

theorem cFldsp (frd : FReg) (uimm : BitVec 9) : Statement (.cFldsp frd uimm) := ⟨rfl, rfl, rfl⟩

theorem cLwsp (rd : XReg) (uimm : BitVec 8) : Statement (.cLwsp rd uimm) := ⟨rfl, rfl, rfl⟩

theorem cLdsp (rd : XReg) (uimm : BitVec 9) : Statement (.cLdsp rd uimm) := ⟨rfl, rfl, rfl⟩

theorem cJr (rs1 : XReg) : Statement (.cJr rs1) := ⟨rfl, rfl, rfl⟩

theorem cMv (rd : XReg) (rs2 : XReg) : Statement (.cMv rd rs2) := ⟨rfl, rfl, rfl⟩

theorem cEbreak : Statement .cEbreak := ⟨rfl, rfl, rfl⟩

theorem cJalr (rs1 : XReg) : Statement (.cJalr rs1) := ⟨rfl, rfl, rfl⟩

theorem cAdd (rd : XReg) (rs2 : XReg) : Statement (.cAdd rd rs2) := ⟨rfl, rfl, rfl⟩

theorem cFsdsp (frs2 : FReg) (uimm : BitVec 9) : Statement (.cFsdsp frs2 uimm) := ⟨rfl, rfl, rfl⟩

theorem cSwsp (rs2 : XReg) (uimm : BitVec 8) : Statement (.cSwsp rs2 uimm) := ⟨rfl, rfl, rfl⟩

theorem cSdsp (rs2 : XReg) (uimm : BitVec 9) : Statement (.cSdsp rs2 uimm) := ⟨rfl, rfl, rfl⟩

end Sys2Proof.Laws.Length
end

