-- ==== Sys2Proof/Tests/Slice0.lean ====
section
/-! SUPPORT. The model's own tests. Words, start states and results are those of spec/95_test_vectors.md, unless a section
says otherwise; and for each statement with hypotheses, a concrete case that meets them. -/

namespace Sys2Proof.Tests

open Sys2Proof.Machine Sys2Proof.Spec

/-! ## The bench of 95_test_vectors.md "Conventions" -/

/-- The default start state: pc 0x1000, code and read-only and data pages, plain LR/SC, misaligned accesses fault. -/
def bench : State :=
  { State.reset with params := { Params.launch with mapping := [
      { base := 0x1000, size := 0x1000, read := true, write := false, fetch := true },
      { base := 0x2000, size := 0x2000, read := true, write := true, fetch := false },
      { base := 0x4000, size := 0x1000, read := true, write := false, fetch := false }] } }

/-- MISALIGNED_PLAIN = split. -/
def splitting (s : State) : State := { s with params := { s.params with misalignedPlain := .split } }

/-- LRSC_MODE = reserve, holding this reservation. -/
def reserving (s : State) (r : Option Reservation) : State :=
  { s with resv := r, params := { s.params with lrscMode := .reserve } }

/-- IMPLEMENTED without this mnemonic. -/
def without (m : String) (s : State) : State := { s with params := { s.params with withheld := [m] } }

/-- The n bytes at `a` hold v. -/
def poke (s : State) (a : Word) (n : Nat) (v : Word) : State := s.withMem (memWrite s.mem a n v)

/-- The word of `nbits` bits stands at pc. -/
def placed (nbits w : Nat) (s : State) : State := poke s s.pc (nbits / 8) (BitVec.ofNat 64 w)

/-- The hart has stopped here with this event. -/
def stopped (e : StopEvent) (s : State) : State :=
  { s with status := .stopped { event := e, pc := s.pc, hart := s.hart } }

/-- One step with the word at pc answers a next state that passes the check. -/
def gives (nbits w : Nat) (s : State) (check : State → Bool) : Bool :=
  match step (placed nbits w s) with
  | .next t => check t
  | .fault _ => false
  | .refused _ => false

/-- The check for a stop: this event at this pc, and the pc itself not moved. -/
def stops (e : StopEvent) (pc : Word) (t : State) : Bool :=
  t.status == .stopped { event := e, pc := pc, hart := 0 } && t.pc == pc

/-! ## Well-formedness: an ill-formed term for each check -/

theorem test_wf_refuses_odd_offsets :
    (Instr.jal 1#5 1#21).wf = false ∧ (Instr.beq 1#5 2#5 1#13).wf = false ∧ (Instr.bne 1#5 2#5 1#13).wf = false ∧
    (Instr.blt 1#5 2#5 1#13).wf = false ∧ (Instr.bge 1#5 2#5 1#13).wf = false ∧ (Instr.bltu 1#5 2#5 1#13).wf = false ∧
    (Instr.bgeu 1#5 2#5 1#13).wf = false ∧ (Instr.cJ 1#12).wf = false ∧ (Instr.cBeqz 8#5 1#9).wf = false ∧
    (Instr.cBnez 8#5 1#9).wf = false := by decide

theorem test_wf_refuses_registers_out_of_reach :
    (Instr.cAddi4spn 7#5 4#10).wf = false ∧ (Instr.cFld 16#5 8#5 0#8).wf = false ∧ (Instr.cFld 8#5 7#5 0#8).wf = false ∧
    (Instr.cLw 7#5 8#5 0#7).wf = false ∧ (Instr.cLw 8#5 16#5 0#7).wf = false ∧ (Instr.cLd 7#5 8#5 0#8).wf = false ∧
    (Instr.cLd 8#5 0#5 0#8).wf = false ∧ (Instr.cFsd 7#5 8#5 0#8).wf = false ∧ (Instr.cFsd 8#5 7#5 0#8).wf = false ∧
    (Instr.cSw 7#5 8#5 0#7).wf = false ∧ (Instr.cSw 8#5 7#5 0#7).wf = false ∧ (Instr.cSd 7#5 8#5 0#8).wf = false ∧
    (Instr.cSd 8#5 7#5 0#8).wf = false ∧ (Instr.cBeqz 7#5 0#9).wf = false ∧ (Instr.cBnez 16#5 0#9).wf = false := by decide

theorem test_wf_refuses_alu_registers_out_of_reach :
    (Instr.cSrli 7#5 1#6).wf = false ∧ (Instr.cSrai 7#5 1#6).wf = false ∧ (Instr.cAndi 7#5 1#6).wf = false ∧
    (Instr.cSub 7#5 8#5).wf = false ∧ (Instr.cSub 8#5 7#5).wf = false ∧ (Instr.cXor 7#5 8#5).wf = false ∧
    (Instr.cXor 8#5 7#5).wf = false ∧ (Instr.cOr 7#5 8#5).wf = false ∧ (Instr.cOr 8#5 7#5).wf = false ∧
    (Instr.cAnd 7#5 8#5).wf = false ∧ (Instr.cAnd 8#5 7#5).wf = false ∧ (Instr.cSubw 7#5 8#5).wf = false ∧
    (Instr.cSubw 8#5 7#5).wf = false ∧ (Instr.cAddw 7#5 8#5).wf = false ∧ (Instr.cAddw 8#5 7#5).wf = false := by decide

theorem test_wf_refuses_misplaced_immediate_bits :
    (Instr.cAddi4spn 8#5 2#10).wf = false ∧ (Instr.cFld 8#5 8#5 4#8).wf = false ∧ (Instr.cLw 8#5 8#5 2#7).wf = false ∧
    (Instr.cLd 8#5 8#5 4#8).wf = false ∧ (Instr.cFsd 8#5 8#5 4#8).wf = false ∧ (Instr.cSw 8#5 8#5 2#7).wf = false ∧
    (Instr.cSd 8#5 8#5 4#8).wf = false ∧ (Instr.cAddi16sp 8#10).wf = false ∧ (Instr.cLui 1#5 0x800#18).wf = false ∧
    (Instr.cFldsp 1#5 4#9).wf = false ∧ (Instr.cLwsp 1#5 2#8).wf = false ∧ (Instr.cLdsp 1#5 4#9).wf = false ∧
    (Instr.cFsdsp 1#5 4#9).wf = false ∧ (Instr.cSwsp 1#5 2#8).wf = false ∧ (Instr.cSdsp 1#5 4#9).wf = false := by decide

theorem test_wf_refuses_reserved_operands :
    (Instr.cAddi4spn 8#5 0#10).wf = false ∧ (Instr.cAddi 0#5 1#6).wf = false ∧ (Instr.cAddiw 0#5 1#6).wf = false ∧
    (Instr.cAddi16sp 0#10).wf = false ∧ (Instr.cLui 1#5 0#18).wf = false ∧ (Instr.cLui 2#5 0x1000#18).wf = false ∧
    (Instr.cLwsp 0#5 0#8).wf = false ∧ (Instr.cLdsp 0#5 0#9).wf = false ∧ (Instr.cJr 0#5).wf = false ∧
    (Instr.cMv 1#5 0#5).wf = false ∧ (Instr.cJalr 0#5).wf = false ∧ (Instr.cAdd 1#5 0#5).wf = false := by decide

/-! ## Decoding: for every instruction a word of the spec (95_test_vectors.md; thirteen atomic words written out by R154 and
the funct5 of R601) and the instruction its disassembly names -/

theorem test_decode_lui_to_blt :
    decodeTableWord 32 0x800000B7 = some (.lui 1#5 0x80000#20) ∧
    decodeTableWord 32 0xFFFFF097 = some (.auipc 1#5 0xFFFFF#20) ∧
    decodeTableWord 32 0x7FFFF06F = some (.jal 0#5 0xFFFFE#21) ∧
    decodeTableWord 32 0xFFF100E7 = some (.jalr 1#5 2#5 0xFFF#12) ∧
    decodeTableWord 32 0x80000063 = some (.beq 0#5 0#5 0x1000#13) ∧
    decodeTableWord 32 0x00311463 = some (.bne 2#5 3#5 0x8#13) ∧
    decodeTableWord 32 0x00314463 = some (.blt 2#5 3#5 0x8#13) := by decide

theorem test_decode_bge_to_bgeu :
    decodeTableWord 32 0x00315463 = some (.bge 2#5 3#5 0x8#13) ∧
    decodeTableWord 32 0x00316463 = some (.bltu 2#5 3#5 0x8#13) ∧
    decodeTableWord 32 0x00317463 = some (.bgeu 2#5 3#5 0x8#13) := by decide

theorem test_decode_lb_to_lwu :
    decodeTableWord 32 0x00810083 = some (.lb 1#5 2#5 0x8#12) ∧
    decodeTableWord 32 0x00E11083 = some (.lh 1#5 2#5 0xE#12) ∧
    decodeTableWord 32 0x00C12083 = some (.lw 1#5 2#5 0xC#12) ∧
    decodeTableWord 32 0x00013083 = some (.ld 1#5 2#5 0x0#12) ∧
    decodeTableWord 32 0x00814083 = some (.lbu 1#5 2#5 0x8#12) ∧
    decodeTableWord 32 0x00E15083 = some (.lhu 1#5 2#5 0xE#12) ∧
    decodeTableWord 32 0x00C16083 = some (.lwu 1#5 2#5 0xC#12) := by decide

theorem test_decode_sb_to_sd :
    decodeTableWord 32 0x003100A3 = some (.sb 3#5 2#5 0x1#12) ∧
    decodeTableWord 32 0x00311123 = some (.sh 3#5 2#5 0x2#12) ∧
    decodeTableWord 32 0x00312223 = some (.sw 3#5 2#5 0x4#12) ∧
    decodeTableWord 32 0x80313023 = some (.sd 3#5 2#5 0x800#12) := by decide

theorem test_decode_addi_to_slli :
    decodeTableWord 32 0x80000093 = some (.addi 1#5 0#5 0x800#12) ∧
    decodeTableWord 32 0x00012093 = some (.slti 1#5 2#5 0x0#12) ∧
    decodeTableWord 32 0xFFF13093 = some (.sltiu 1#5 2#5 0xFFF#12) ∧
    decodeTableWord 32 0xFFF14093 = some (.xori 1#5 2#5 0xFFF#12) ∧
    decodeTableWord 32 0x80016093 = some (.ori 1#5 2#5 0x800#12) ∧
    decodeTableWord 32 0xFF017093 = some (.andi 1#5 2#5 0xFF0#12) ∧
    decodeTableWord 32 0x02011093 = some (.slli 1#5 2#5 0x20#6) := by decide

theorem test_decode_srli_to_srai :
    decodeTableWord 32 0x03F15093 = some (.srli 1#5 2#5 0x3F#6) ∧
    decodeTableWord 32 0x43F15093 = some (.srai 1#5 2#5 0x3F#6) := by decide

theorem test_decode_add_to_srl :
    decodeTableWord 32 0x003100B3 = some (.add 1#5 2#5 3#5) ∧
    decodeTableWord 32 0x402100B3 = some (.sub 1#5 2#5 2#5) ∧
    decodeTableWord 32 0x003110B3 = some (.sll 1#5 2#5 3#5) ∧
    decodeTableWord 32 0x003120B3 = some (.slt 1#5 2#5 3#5) ∧
    decodeTableWord 32 0x003030B3 = some (.sltu 1#5 0#5 3#5) ∧
    decodeTableWord 32 0x002140B3 = some (.xor 1#5 2#5 2#5) ∧
    decodeTableWord 32 0x003150B3 = some (.srl 1#5 2#5 3#5) := by decide

theorem test_decode_sra_to_and :
    decodeTableWord 32 0x403150B3 = some (.sra 1#5 2#5 3#5) ∧
    decodeTableWord 32 0x003160B3 = some (.or 1#5 2#5 3#5) ∧
    decodeTableWord 32 0x003170B3 = some (.and 1#5 2#5 3#5) := by decide

theorem test_decode_fence_to_ebreak :
    decodeTableWord 32 0x0330000F = some (.fence 0#4 3#4 3#4 0#5 0#5) ∧
    decodeTableWord 32 0x0000100F = some (.fenceI 0#12 0#5 0#5) ∧
    decodeTableWord 32 0x00000073 = some .ecall ∧
    decodeTableWord 32 0x00100073 = some .ebreak := by decide

theorem test_decode_addiw_to_sllw :
    decodeTableWord 32 0x0001009B = some (.addiw 1#5 2#5 0x0#12) ∧
    decodeTableWord 32 0x01F1109B = some (.slliw 1#5 2#5 0x1F#5) ∧
    decodeTableWord 32 0x0001509B = some (.srliw 1#5 2#5 0x0#5) ∧
    decodeTableWord 32 0x41F1509B = some (.sraiw 1#5 2#5 0x1F#5) ∧
    decodeTableWord 32 0x003100BB = some (.addw 1#5 2#5 3#5) ∧
    decodeTableWord 32 0x403100BB = some (.subw 1#5 2#5 3#5) ∧
    decodeTableWord 32 0x003110BB = some (.sllw 1#5 2#5 3#5) := by decide

theorem test_decode_srlw_to_sraw :
    decodeTableWord 32 0x003150BB = some (.srlw 1#5 2#5 3#5) ∧
    decodeTableWord 32 0x403150BB = some (.sraw 1#5 2#5 3#5) := by decide

theorem test_decode_mul_to_rem :
    decodeTableWord 32 0x023100B3 = some (.mul 1#5 2#5 3#5) ∧
    decodeTableWord 32 0x023110B3 = some (.mulh 1#5 2#5 3#5) ∧
    decodeTableWord 32 0x023120B3 = some (.mulhsu 1#5 2#5 3#5) ∧
    decodeTableWord 32 0x023130B3 = some (.mulhu 1#5 2#5 3#5) ∧
    decodeTableWord 32 0x023140B3 = some (.div 1#5 2#5 3#5) ∧
    decodeTableWord 32 0x023150B3 = some (.divu 1#5 2#5 3#5) ∧
    decodeTableWord 32 0x023160B3 = some (.rem 1#5 2#5 3#5) := by decide

theorem test_decode_remu_to_remuw :
    decodeTableWord 32 0x023170B3 = some (.remu 1#5 2#5 3#5) ∧
    decodeTableWord 32 0x023100BB = some (.mulw 1#5 2#5 3#5) ∧
    decodeTableWord 32 0x023140BB = some (.divw 1#5 2#5 3#5) ∧
    decodeTableWord 32 0x023150BB = some (.divuw 1#5 2#5 3#5) ∧
    decodeTableWord 32 0x023160BB = some (.remw 1#5 2#5 3#5) ∧
    decodeTableWord 32 0x023170BB = some (.remuw 1#5 2#5 3#5) := by decide

theorem test_decode_lrW_to_scD :
    decodeTableWord 32 0x100120AF = some (.lrW 1#5 2#5 false false) ∧
    decodeTableWord 32 0x183120AF = some (.scW 1#5 2#5 3#5 false false) ∧
    decodeTableWord 32 0x100130AF = some (.lrD 1#5 2#5 false false) ∧
    decodeTableWord 32 0x183130AF = some (.scD 1#5 2#5 3#5 false false) := by decide

theorem test_decode_amoswapW_to_amomaxW :
    decodeTableWord 32 0x0831202F = some (.amoswapW 0#5 2#5 3#5 false false) ∧
    decodeTableWord 32 0x003120AF = some (.amoaddW 1#5 2#5 3#5 false false) ∧
    decodeTableWord 32 0x203120AF = some (.amoxorW 1#5 2#5 3#5 false false) ∧
    decodeTableWord 32 0x603120AF = some (.amoandW 1#5 2#5 3#5 false false) ∧
    decodeTableWord 32 0x403120AF = some (.amoorW 1#5 2#5 3#5 false false) ∧
    decodeTableWord 32 0x803120AF = some (.amominW 1#5 2#5 3#5 false false) ∧
    decodeTableWord 32 0xA03120AF = some (.amomaxW 1#5 2#5 3#5 false false) := by decide

theorem test_decode_amominuW_to_amomaxuW :
    decodeTableWord 32 0xC03120AF = some (.amominuW 1#5 2#5 3#5 false false) ∧
    decodeTableWord 32 0xE03120AF = some (.amomaxuW 1#5 2#5 3#5 false false) := by decide

theorem test_decode_amoswapD_to_amomaxD :
    decodeTableWord 32 0x083130AF = some (.amoswapD 1#5 2#5 3#5 false false) ∧
    decodeTableWord 32 0x003130AF = some (.amoaddD 1#5 2#5 3#5 false false) ∧
    decodeTableWord 32 0x263130AF = some (.amoxorD 1#5 2#5 3#5 true true) ∧
    decodeTableWord 32 0x603130AF = some (.amoandD 1#5 2#5 3#5 false false) ∧
    decodeTableWord 32 0x403130AF = some (.amoorD 1#5 2#5 3#5 false false) ∧
    decodeTableWord 32 0x803130AF = some (.amominD 1#5 2#5 3#5 false false) ∧
    decodeTableWord 32 0xA03130AF = some (.amomaxD 1#5 2#5 3#5 false false) := by decide

theorem test_decode_amominuD_to_amomaxuD :
    decodeTableWord 32 0xC03130AF = some (.amominuD 1#5 2#5 3#5 false false) ∧
    decodeTableWord 32 0xE03130AF = some (.amomaxuD 1#5 2#5 3#5 false false) := by decide

theorem test_decode_csrrw_to_csrrci :
    decodeTableWord 32 0x003110F3 = some (.csrrw 1#5 .fcsr 2#5) ∧
    decodeTableWord 32 0x003020F3 = some (.csrrs 1#5 .fcsr 0#5) ∧
    decodeTableWord 32 0x003130F3 = some (.csrrc 1#5 .fcsr 2#5) ∧
    decodeTableWord 32 0x002FD0F3 = some (.csrrwi 1#5 .frm 0x1F#5) ∧
    decodeTableWord 32 0x00106073 = some (.csrrsi 0#5 .fflags 0x0#5) ∧
    decodeTableWord 32 0x001FF0F3 = some (.csrrci 1#5 .fflags 0x1F#5) := by decide

theorem test_decode_flw_to_faddS :
    decodeTableWord 32 0x00012087 = some (.flw 1#5 2#5 0x0#12) ∧
    decodeTableWord 32 0x00112227 = some (.fsw 1#5 2#5 0x4#12) ∧
    decodeTableWord 32 0x203100C3 = some (.fmaddS 1#5 2#5 3#5 4#5 .rne) ∧
    decodeTableWord 32 0x203100C7 = some (.fmsubS 1#5 2#5 3#5 4#5 .rne) ∧
    decodeTableWord 32 0x203100CB = some (.fnmsubS 1#5 2#5 3#5 4#5 .rne) ∧
    decodeTableWord 32 0x203100CF = some (.fnmaddS 1#5 2#5 3#5 4#5 .rne) ∧
    decodeTableWord 32 0x003100D3 = some (.faddS 1#5 2#5 3#5 .rne) := by decide

theorem test_decode_fsubS_to_fsgnjxS :
    decodeTableWord 32 0x082100D3 = some (.fsubS 1#5 2#5 2#5 .rne) ∧
    decodeTableWord 32 0x103100D3 = some (.fmulS 1#5 2#5 3#5 .rne) ∧
    decodeTableWord 32 0x183100D3 = some (.fdivS 1#5 2#5 3#5 .rne) ∧
    decodeTableWord 32 0x580100D3 = some (.fsqrtS 1#5 2#5 .rne) ∧
    decodeTableWord 32 0x203100D3 = some (.fsgnjS 1#5 2#5 3#5) ∧
    decodeTableWord 32 0x202110D3 = some (.fsgnjnS 1#5 2#5 2#5) ∧
    decodeTableWord 32 0x202120D3 = some (.fsgnjxS 1#5 2#5 2#5) := by decide

theorem test_decode_fminS_to_fmvXW :
    decodeTableWord 32 0x283100D3 = some (.fminS 1#5 2#5 3#5) ∧
    decodeTableWord 32 0x283110D3 = some (.fmaxS 1#5 2#5 3#5) ∧
    decodeTableWord 32 0xC00110D3 = some (.fcvtWS 1#5 2#5 .rtz) ∧
    decodeTableWord 32 0xC01110D3 = some (.fcvtWUS 1#5 2#5 .rtz) ∧
    decodeTableWord 32 0xC02110D3 = some (.fcvtLS 1#5 2#5 .rtz) ∧
    decodeTableWord 32 0xC03130D3 = some (.fcvtLUS 1#5 2#5 .rup) ∧
    decodeTableWord 32 0xE00100D3 = some (.fmvXW 1#5 2#5) := by decide

theorem test_decode_feqS_to_fcvtSL :
    decodeTableWord 32 0xA03120D3 = some (.feqS 1#5 2#5 3#5) ∧
    decodeTableWord 32 0xA03110D3 = some (.fltS 1#5 2#5 3#5) ∧
    decodeTableWord 32 0xA03100D3 = some (.fleS 1#5 2#5 3#5) ∧
    decodeTableWord 32 0xE00110D3 = some (.fclassS 1#5 2#5) ∧
    decodeTableWord 32 0xD00100D3 = some (.fcvtSW 1#5 2#5 .rne) ∧
    decodeTableWord 32 0xD01110D3 = some (.fcvtSWU 1#5 2#5 .rtz) ∧
    decodeTableWord 32 0xD02100D3 = some (.fcvtSL 1#5 2#5 .rne) := by decide

theorem test_decode_fcvtSLU_to_fmvWX :
    decodeTableWord 32 0xD03100D3 = some (.fcvtSLU 1#5 2#5 .rne) ∧
    decodeTableWord 32 0xF00100D3 = some (.fmvWX 1#5 2#5) := by decide

theorem test_decode_fld_to_faddD :
    decodeTableWord 32 0x00813087 = some (.fld 1#5 2#5 0x8#12) ∧
    decodeTableWord 32 0x00113027 = some (.fsd 1#5 2#5 0x0#12) ∧
    decodeTableWord 32 0x223100C3 = some (.fmaddD 1#5 2#5 3#5 4#5 .rne) ∧
    decodeTableWord 32 0x223100C7 = some (.fmsubD 1#5 2#5 3#5 4#5 .rne) ∧
    decodeTableWord 32 0x223100CB = some (.fnmsubD 1#5 2#5 3#5 4#5 .rne) ∧
    decodeTableWord 32 0x223100CF = some (.fnmaddD 1#5 2#5 3#5 4#5 .rne) ∧
    decodeTableWord 32 0x023100D3 = some (.faddD 1#5 2#5 3#5 .rne) := by decide

theorem test_decode_fsubD_to_fsgnjxD :
    decodeTableWord 32 0x0A3100D3 = some (.fsubD 1#5 2#5 3#5 .rne) ∧
    decodeTableWord 32 0x123100D3 = some (.fmulD 1#5 2#5 3#5 .rne) ∧
    decodeTableWord 32 0x1A3100D3 = some (.fdivD 1#5 2#5 3#5 .rne) ∧
    decodeTableWord 32 0x5A0100D3 = some (.fsqrtD 1#5 2#5 .rne) ∧
    decodeTableWord 32 0x223100D3 = some (.fsgnjD 1#5 2#5 3#5) ∧
    decodeTableWord 32 0x223110D3 = some (.fsgnjnD 1#5 2#5 3#5) ∧
    decodeTableWord 32 0x223120D3 = some (.fsgnjxD 1#5 2#5 3#5) := by decide

theorem test_decode_fminD_to_fleD :
    decodeTableWord 32 0x2A3100D3 = some (.fminD 1#5 2#5 3#5) ∧
    decodeTableWord 32 0x2A3110D3 = some (.fmaxD 1#5 2#5 3#5) ∧
    decodeTableWord 32 0x401100D3 = some (.fcvtSD 1#5 2#5 .rne) ∧
    decodeTableWord 32 0x420100D3 = some (.fcvtDS 1#5 2#5 .rne) ∧
    decodeTableWord 32 0xA23120D3 = some (.feqD 1#5 2#5 3#5) ∧
    decodeTableWord 32 0xA23110D3 = some (.fltD 1#5 2#5 3#5) ∧
    decodeTableWord 32 0xA23100D3 = some (.fleD 1#5 2#5 3#5) := by decide

theorem test_decode_fclassD_to_fcvtDW :
    decodeTableWord 32 0xE20110D3 = some (.fclassD 1#5 2#5) ∧
    decodeTableWord 32 0xC20100D3 = some (.fcvtWD 1#5 2#5 .rne) ∧
    decodeTableWord 32 0xC21110D3 = some (.fcvtWUD 1#5 2#5 .rtz) ∧
    decodeTableWord 32 0xC22110D3 = some (.fcvtLD 1#5 2#5 .rtz) ∧
    decodeTableWord 32 0xC23110D3 = some (.fcvtLUD 1#5 2#5 .rtz) ∧
    decodeTableWord 32 0xE20100D3 = some (.fmvXD 1#5 2#5) ∧
    decodeTableWord 32 0xD20100D3 = some (.fcvtDW 1#5 2#5 .rne) := by decide

theorem test_decode_fcvtDWU_to_fmvDX :
    decodeTableWord 32 0xD21100D3 = some (.fcvtDWU 1#5 2#5 .rne) ∧
    decodeTableWord 32 0xD22130D3 = some (.fcvtDL 1#5 2#5 .rup) ∧
    decodeTableWord 32 0xD23100D3 = some (.fcvtDLU 1#5 2#5 .rne) ∧
    decodeTableWord 32 0xF20100D3 = some (.fmvDX 1#5 2#5) := by decide

theorem test_decode_cAddi4spn_to_cSd :
    decodeTableWord 16 0x0800 = some (.cAddi4spn 8#5 0x10#10) ∧
    decodeTableWord 16 0x3C64 = some (.cFld 9#5 8#5 0xF8#8) ∧
    decodeTableWord 16 0x4044 = some (.cLw 9#5 8#5 0x4#7) ∧
    decodeTableWord 16 0x6404 = some (.cLd 9#5 8#5 0x8#8) ∧
    decodeTableWord 16 0xA404 = some (.cFsd 9#5 8#5 0x8#8) ∧
    decodeTableWord 16 0xDC64 = some (.cSw 9#5 8#5 0x7C#7) ∧
    decodeTableWord 16 0xE004 = some (.cSd 9#5 8#5 0x0#8) := by decide

theorem test_decode_cNop_to_cSrli :
    decodeTableWord 16 0x0001 = some (.cNop 0#6) ∧
    decodeTableWord 16 0x1501 = some (.cAddi 10#5 0x20#6) ∧
    decodeTableWord 16 0x2505 = some (.cAddiw 10#5 0x1#6) ∧
    decodeTableWord 16 0x557D = some (.cLi 10#5 0x3F#6) ∧
    decodeTableWord 16 0x7101 = some (.cAddi16sp 0x200#10) ∧
    decodeTableWord 16 0x7501 = some (.cLui 10#5 0x20000#18) ∧
    decodeTableWord 16 0x907D = some (.cSrli 8#5 0x3F#6) := by decide

theorem test_decode_cSrai_to_cSubw :
    decodeTableWord 16 0x9401 = some (.cSrai 8#5 0x20#6) ∧
    decodeTableWord 16 0x9879 = some (.cAndi 8#5 0x3E#6) ∧
    decodeTableWord 16 0x8C05 = some (.cSub 8#5 9#5) ∧
    decodeTableWord 16 0x8C25 = some (.cXor 8#5 9#5) ∧
    decodeTableWord 16 0x8C45 = some (.cOr 8#5 9#5) ∧
    decodeTableWord 16 0x8C65 = some (.cAnd 8#5 9#5) ∧
    decodeTableWord 16 0x9C05 = some (.cSubw 8#5 9#5) := by decide

theorem test_decode_cAddw_to_cLwsp :
    decodeTableWord 16 0x9C25 = some (.cAddw 8#5 9#5) ∧
    decodeTableWord 16 0xB001 = some (.cJ 0x800#12) ∧
    decodeTableWord 16 0xCC7D = some (.cBeqz 8#5 0xFE#9) ∧
    decodeTableWord 16 0xF001 = some (.cBnez 8#5 0x100#9) ∧
    decodeTableWord 16 0x157E = some (.cSlli 10#5 0x3F#6) ∧
    decodeTableWord 16 0x2522 = some (.cFldsp 10#5 0x8#9) ∧
    decodeTableWord 16 0x557E = some (.cLwsp 10#5 0xFC#8) := by decide

theorem test_decode_cLdsp_to_cFsdsp :
    decodeTableWord 16 0x757E = some (.cLdsp 10#5 0x1F8#9) ∧
    decodeTableWord 16 0x8082 = some (.cJr 1#5) ∧
    decodeTableWord 16 0x852E = some (.cMv 10#5 11#5) ∧
    decodeTableWord 16 0x9002 = some .cEbreak ∧
    decodeTableWord 16 0x9282 = some (.cJalr 5#5) ∧
    decodeTableWord 16 0x952E = some (.cAdd 10#5 11#5) ∧
    decodeTableWord 16 0xA82A = some (.cFsdsp 10#5 0x10#9) := by decide

theorem test_decode_cSwsp_to_cSdsp :
    decodeTableWord 16 0xC22A = some (.cSwsp 10#5 0x4#8) ∧
    decodeTableWord 16 0xE02A = some (.cSdsp 10#5 0x0#9) := by decide

/-! ## One step of every instruction (95_test_vectors.md V3 to V11; thirteen atomics by hand from R601) -/

theorem test_step_lui_to_blt :
    gives 32 0x800000B7 bench (fun t => t.rx 1#5 == 0xFFFFFFFF80000000#64 && t.pc == 0x1004#64) ∧
    gives 32 0xFFFFF097 (bench.withPc 0x1800#64) (fun t => t.rx 1#5 == 0x800#64 && t.pc == 0x1804#64) ∧
    gives 32 0x7FFFF06F bench (fun t => t.rx 0#5 == 0x0#64 && t.pc == 0x100FFE#64) ∧
    gives 32 0xFFF100E7 (bench.wx 2#5 0x2000#64) (fun t => t.rx 1#5 == 0x1004#64 && t.pc == 0x1FFE#64) ∧
    gives 32 0x80000063 bench (fun t => t.pc == 0x0#64) ∧
    gives 32 0x00311463 ((bench.wx 2#5 0x1#64).wx 3#5 0x2#64) (fun t => t.pc == 0x1008#64) ∧
    gives 32 0x00314463 ((bench.wx 2#5 0x0#64).wx 3#5 0xFFFFFFFFFFFFFFFF#64) (fun t => t.pc == 0x1004#64) := by decide

theorem test_step_bge_to_bgeu :
    gives 32 0x00315463 ((bench.wx 2#5 0xFFFFFFFFFFFFFFFF#64).wx 3#5 0xFFFFFFFFFFFFFFFF#64)
      (fun t => t.pc == 0x1008#64) ∧
    gives 32 0x00316463 ((bench.wx 2#5 0x0#64).wx 3#5 0xFFFFFFFFFFFFFFFF#64) (fun t => t.pc == 0x1008#64) ∧
    gives 32 0x00317463 ((bench.wx 2#5 0x0#64).wx 3#5 0xFFFFFFFFFFFFFFFF#64) (fun t => t.pc == 0x1004#64) := by decide

theorem test_step_lb_to_lwu :
    gives 32 0x00810083 (poke (poke (bench.wx 2#5 0x2000#64) 0x2000#64 8 0x8877665544332211#64) 0x2008#64 8 0xFFEEDDCCBBAA9988#64)
      (fun t => t.rx 1#5 == 0xFFFFFFFFFFFFFF88#64 && t.pc == 0x1004#64) ∧
    gives 32 0x00E11083 (poke (poke (bench.wx 2#5 0x2000#64) 0x2000#64 8 0x8877665544332211#64) 0x2008#64 8 0xFFEEDDCCBBAA9988#64)
      (fun t => t.rx 1#5 == 0xFFFFFFFFFFFFFFEE#64 && t.pc == 0x1004#64) ∧
    gives 32 0x00C12083 (poke (poke (bench.wx 2#5 0x2000#64) 0x2000#64 8 0x8877665544332211#64) 0x2008#64 8 0xFFEEDDCCBBAA9988#64)
      (fun t => t.rx 1#5 == 0xFFFFFFFFFFEEDDCC#64 && t.pc == 0x1004#64) ∧
    gives 32 0x00013083 (poke (poke (bench.wx 2#5 0x2000#64) 0x2000#64 8 0x8877665544332211#64) 0x2008#64 8 0xFFEEDDCCBBAA9988#64)
      (fun t => t.rx 1#5 == 0x8877665544332211#64 && t.pc == 0x1004#64) ∧
    gives 32 0x00814083 (poke (poke (bench.wx 2#5 0x2000#64) 0x2000#64 8 0x8877665544332211#64) 0x2008#64 8 0xFFEEDDCCBBAA9988#64)
      (fun t => t.rx 1#5 == 0x88#64 && t.pc == 0x1004#64) ∧
    gives 32 0x00E15083 (poke (poke (bench.wx 2#5 0x2000#64) 0x2000#64 8 0x8877665544332211#64) 0x2008#64 8 0xFFEEDDCCBBAA9988#64)
      (fun t => t.rx 1#5 == 0xFFEE#64 && t.pc == 0x1004#64) ∧
    gives 32 0x00C16083 (poke (poke (bench.wx 2#5 0x2000#64) 0x2000#64 8 0x8877665544332211#64) 0x2008#64 8 0xFFEEDDCCBBAA9988#64)
      (fun t => t.rx 1#5 == 0xFFEEDDCC#64 && t.pc == 0x1004#64) := by decide

theorem test_step_sb_to_sd :
    gives 32 0x003100A3 ((bench.wx 2#5 0x2000#64).wx 3#5 0x1234#64)
      (fun t => memRead t.mem 0x2001#64 1 == 0x34#64 && t.pc == 0x1004#64) ∧
    gives 32 0x00311123 ((bench.wx 2#5 0x2000#64).wx 3#5 0x1234#64)
      (fun t => memRead t.mem 0x2002#64 2 == 0x1234#64 && t.pc == 0x1004#64) ∧
    gives 32 0x00312223 ((bench.wx 2#5 0x2000#64).wx 3#5 0x1122334455667788#64)
      (fun t => memRead t.mem 0x2004#64 4 == 0x55667788#64 && t.pc == 0x1004#64) ∧
    gives 32 0x80313023 ((bench.wx 2#5 0x2800#64).wx 3#5 0x1122334455667788#64)
      (fun t => memRead t.mem 0x2000#64 8 == 0x1122334455667788#64 && t.pc == 0x1004#64) := by decide

theorem test_step_addi_to_slli :
    gives 32 0x80000093 bench (fun t => t.rx 1#5 == 0xFFFFFFFFFFFFF800#64 && t.pc == 0x1004#64) ∧
    gives 32 0x00012093 (bench.wx 2#5 0x8000000000000000#64) (fun t => t.rx 1#5 == 0x1#64 && t.pc == 0x1004#64) ∧
    gives 32 0xFFF13093 (bench.wx 2#5 0xFFFFFFFFFFFFFFFE#64) (fun t => t.rx 1#5 == 0x1#64 && t.pc == 0x1004#64) ∧
    gives 32 0xFFF14093 (bench.wx 2#5 0x5555#64) (fun t => t.rx 1#5 == 0xFFFFFFFFFFFFAAAA#64 && t.pc == 0x1004#64) ∧
    gives 32 0x80016093 (bench.wx 2#5 0x1#64) (fun t => t.rx 1#5 == 0xFFFFFFFFFFFFF801#64 && t.pc == 0x1004#64) ∧
    gives 32 0xFF017093 (bench.wx 2#5 0x12345678#64) (fun t => t.rx 1#5 == 0x12345670#64 && t.pc == 0x1004#64) ∧
    gives 32 0x02011093 (bench.wx 2#5 0xFFFFFFFF#64)
      (fun t => t.rx 1#5 == 0xFFFFFFFF00000000#64 && t.pc == 0x1004#64) := by decide

theorem test_step_srli_to_srai :
    gives 32 0x03F15093 (bench.wx 2#5 0x8000000000000000#64) (fun t => t.rx 1#5 == 0x1#64 && t.pc == 0x1004#64) ∧
    gives 32 0x43F15093 (bench.wx 2#5 0x8000000000000000#64)
      (fun t => t.rx 1#5 == 0xFFFFFFFFFFFFFFFF#64 && t.pc == 0x1004#64) := by decide

theorem test_step_add_to_srl :
    gives 32 0x003100B3 ((bench.wx 2#5 0x8000000000000000#64).wx 3#5 0x8000000000000000#64)
      (fun t => t.rx 1#5 == 0x0#64 && t.pc == 0x1004#64) ∧
    gives 32 0x402100B3 (bench.wx 2#5 0x5#64) (fun t => t.rx 1#5 == 0x0#64 && t.pc == 0x1004#64) ∧
    gives 32 0x003110B3 ((bench.wx 2#5 0x1#64).wx 3#5 0x40#64) (fun t => t.rx 1#5 == 0x1#64 && t.pc == 0x1004#64) ∧
    gives 32 0x003120B3 ((bench.wx 2#5 0xFFFFFFFFFFFFFFFF#64).wx 3#5 0xFFFFFFFFFFFFFFFF#64)
      (fun t => t.rx 1#5 == 0x0#64 && t.pc == 0x1004#64) ∧
    gives 32 0x003030B3 (bench.wx 3#5 0x5#64) (fun t => t.rx 1#5 == 0x1#64 && t.pc == 0x1004#64) ∧
    gives 32 0x002140B3 (bench.wx 2#5 0xDEADBEEF#64) (fun t => t.rx 1#5 == 0x0#64 && t.pc == 0x1004#64) ∧
    gives 32 0x003150B3 ((bench.wx 2#5 0xF0#64).wx 3#5 0xFFFFFFFFFFFFFFC4#64)
      (fun t => t.rx 1#5 == 0xF#64 && t.pc == 0x1004#64) := by decide

theorem test_step_sra_to_and :
    gives 32 0x403150B3 ((bench.wx 2#5 0xFFFFFFFFFFFFFF00#64).wx 3#5 0x4#64)
      (fun t => t.rx 1#5 == 0xFFFFFFFFFFFFFFF0#64 && t.pc == 0x1004#64) ∧
    gives 32 0x003160B3 ((bench.wx 2#5 0xF000000000000000#64).wx 3#5 0x1#64)
      (fun t => t.rx 1#5 == 0xF000000000000001#64 && t.pc == 0x1004#64) ∧
    gives 32 0x003170B3 ((bench.wx 2#5 0xFFFFFFFFFFFFFFFF#64).wx 3#5 0xFF00FF00FF00FF#64)
      (fun t => t.rx 1#5 == 0xFF00FF00FF00FF#64 && t.pc == 0x1004#64) := by decide

theorem test_step_fence_to_ebreak :
    gives 32 0x0330000F bench (fun t => t.pc == 0x1004#64) ∧
    gives 32 0x0000100F bench (fun t => t.pc == 0x1004#64) ∧
    gives 32 0x00000073 ((bench.wx 17#5 0x5D#64).wx 10#5 0x0#64)
      (stops (.syscall 93#64 0#64 0#64 0#64 0#64 0#64 0#64) 0x1000#64) ∧
    gives 32 0x00100073 bench (stops (.breakpoint) 0x1000#64) := by decide

theorem test_step_addiw_to_sllw :
    gives 32 0x0001009B (bench.wx 2#5 0xFFFFFFFF#64)
      (fun t => t.rx 1#5 == 0xFFFFFFFFFFFFFFFF#64 && t.pc == 0x1004#64) ∧
    gives 32 0x01F1109B (bench.wx 2#5 0x3#64) (fun t => t.rx 1#5 == 0xFFFFFFFF80000000#64 && t.pc == 0x1004#64) ∧
    gives 32 0x0001509B (bench.wx 2#5 0x80000000#64)
      (fun t => t.rx 1#5 == 0xFFFFFFFF80000000#64 && t.pc == 0x1004#64) ∧
    gives 32 0x41F1509B (bench.wx 2#5 0x80000000#64)
      (fun t => t.rx 1#5 == 0xFFFFFFFFFFFFFFFF#64 && t.pc == 0x1004#64) ∧
    gives 32 0x003100BB ((bench.wx 2#5 0xFFFFFFFF#64).wx 3#5 0x1#64)
      (fun t => t.rx 1#5 == 0x0#64 && t.pc == 0x1004#64) ∧
    gives 32 0x403100BB ((bench.wx 2#5 0x80000000#64).wx 3#5 0x1#64)
      (fun t => t.rx 1#5 == 0x7FFFFFFF#64 && t.pc == 0x1004#64) ∧
    gives 32 0x003110BB ((bench.wx 2#5 0x1#64).wx 3#5 0x20#64) (fun t => t.rx 1#5 == 0x1#64 && t.pc == 0x1004#64) := by decide

theorem test_step_srlw_to_sraw :
    gives 32 0x003150BB ((bench.wx 2#5 0xFFFFFFFF00000010#64).wx 3#5 0x4#64)
      (fun t => t.rx 1#5 == 0x1#64 && t.pc == 0x1004#64) ∧
    gives 32 0x403150BB ((bench.wx 2#5 0xF0000000#64).wx 3#5 0x24#64)
      (fun t => t.rx 1#5 == 0xFFFFFFFFFF000000#64 && t.pc == 0x1004#64) := by decide

theorem test_step_mul_to_rem :
    gives 32 0x023100B3 ((bench.wx 2#5 0x8000000000000000#64).wx 3#5 0xFFFFFFFFFFFFFFFF#64)
      (fun t => t.rx 1#5 == 0x8000000000000000#64 && t.pc == 0x1004#64) ∧
    gives 32 0x023110B3 ((bench.wx 2#5 0xFFFFFFFFFFFFFFFF#64).wx 3#5 0xFFFFFFFFFFFFFFFF#64)
      (fun t => t.rx 1#5 == 0x0#64 && t.pc == 0x1004#64) ∧
    gives 32 0x023120B3 ((bench.wx 2#5 0xFFFFFFFFFFFFFFFE#64).wx 3#5 0x8000000000000000#64)
      (fun t => t.rx 1#5 == 0xFFFFFFFFFFFFFFFF#64 && t.pc == 0x1004#64) ∧
    gives 32 0x023130B3 ((bench.wx 2#5 0xFFFFFFFFFFFFFFFF#64).wx 3#5 0x2#64)
      (fun t => t.rx 1#5 == 0x1#64 && t.pc == 0x1004#64) ∧
    gives 32 0x023140B3 ((bench.wx 2#5 0x7#64).wx 3#5 0xFFFFFFFFFFFFFFFE#64)
      (fun t => t.rx 1#5 == 0xFFFFFFFFFFFFFFFD#64 && t.pc == 0x1004#64) ∧
    gives 32 0x023150B3 ((bench.wx 2#5 0xFFFFFFFFFFFFFFFF#64).wx 3#5 0x10#64)
      (fun t => t.rx 1#5 == 0xFFFFFFFFFFFFFFF#64 && t.pc == 0x1004#64) ∧
    gives 32 0x023160B3 ((bench.wx 2#5 0x7#64).wx 3#5 0xFFFFFFFFFFFFFFFE#64)
      (fun t => t.rx 1#5 == 0x1#64 && t.pc == 0x1004#64) := by decide

theorem test_step_remu_to_remuw :
    gives 32 0x023170B3 ((bench.wx 2#5 0xFFFFFFFFFFFFFFFF#64).wx 3#5 0xA#64)
      (fun t => t.rx 1#5 == 0x5#64 && t.pc == 0x1004#64) ∧
    gives 32 0x023100BB ((bench.wx 2#5 0x12345678FFFFFFFF#64).wx 3#5 0xABCDEF0000000003#64)
      (fun t => t.rx 1#5 == 0xFFFFFFFFFFFFFFFD#64 && t.pc == 0x1004#64) ∧
    gives 32 0x023140BB ((bench.wx 2#5 0x80000000#64).wx 3#5 0xFFFFFFFF#64)
      (fun t => t.rx 1#5 == 0xFFFFFFFF80000000#64 && t.pc == 0x1004#64) ∧
    gives 32 0x023150BB ((bench.wx 2#5 0xFFFFFFFE#64).wx 3#5 0x2#64)
      (fun t => t.rx 1#5 == 0x7FFFFFFF#64 && t.pc == 0x1004#64) ∧
    gives 32 0x023160BB ((bench.wx 2#5 0x80000000#64).wx 3#5 0xFFFFFFFFFFFFFFFF#64)
      (fun t => t.rx 1#5 == 0x0#64 && t.pc == 0x1004#64) ∧
    gives 32 0x023170BB ((bench.wx 2#5 0x180000005#64).wx 3#5 0x80000000#64)
      (fun t => t.rx 1#5 == 0x5#64 && t.pc == 0x1004#64) := by decide

theorem test_step_lrW_to_scD :
    gives 32 0x100120AF (poke ((bench.wx 2#5 0x3000#64).wx 3#5 0x5#64) 0x3000#64 4 0x80000000#64)
      (fun t => t.rx 1#5 == 0xFFFFFFFF80000000#64 && t.pc == 0x1004#64) ∧
    gives 32 0x183120AF (poke ((bench.wx 2#5 0x3000#64).wx 3#5 0x5#64) 0x3000#64 4 0x80000000#64)
      (fun t => t.rx 1#5 == 0x0#64 && memRead t.mem 0x3000#64 4 == 0x5#64 && t.pc == 0x1004#64) ∧
    gives 32 0x100130AF (poke (bench.wx 2#5 0x4000#64) 0x4000#64 1 0x7#64)
      (fun t => t.rx 1#5 == 0x7#64 && t.pc == 0x1004#64) ∧
    gives 32 0x183130AF (((reserving bench (some ⟨0x3000#64, 8⟩)).wx 2#5 0x3000#64).wx 3#5 0x5#64)
      (fun t => t.rx 1#5 == 0x0#64 && memRead t.mem 0x3000#64 8 == 0x5#64 && t.resv == none && t.pc == 0x1004#64) := by decide

theorem test_step_amoswapW_to_amomaxW :
    gives 32 0x0831202F (poke ((bench.wx 2#5 0x3000#64).wx 3#5 0x5#64) 0x3000#64 4 0x80000000#64)
      (fun t => t.rx 0#5 == 0x0#64 && memRead t.mem 0x3000#64 4 == 0x5#64 && t.pc == 0x1004#64) ∧
    gives 32 0x003120AF (poke ((bench.wx 2#5 0x3000#64).wx 3#5 0x5#64) 0x3000#64 4 0x80000000#64)
      (fun t => t.rx 1#5 == 0xFFFFFFFF80000000#64 && memRead t.mem 0x3000#64 4 == 0x80000005#64 && t.pc == 0x1004#64) ∧
    gives 32 0x203120AF (poke ((bench.wx 2#5 0x3000#64).wx 3#5 0x5#64) 0x3000#64 4 0x80000000#64)
      (fun t => t.rx 1#5 == 0xFFFFFFFF80000000#64 && memRead t.mem 0x3000#64 4 == 0x80000005#64 && t.pc == 0x1004#64) ∧
    gives 32 0x603120AF (poke ((bench.wx 2#5 0x3000#64).wx 3#5 0x5#64) 0x3000#64 4 0x80000000#64)
      (fun t => t.rx 1#5 == 0xFFFFFFFF80000000#64 && memRead t.mem 0x3000#64 4 == 0x0#64 && t.pc == 0x1004#64) ∧
    gives 32 0x403120AF (poke ((bench.wx 2#5 0x3000#64).wx 3#5 0x5#64) 0x3000#64 4 0x80000000#64)
      (fun t => t.rx 1#5 == 0xFFFFFFFF80000000#64 && memRead t.mem 0x3000#64 4 == 0x80000005#64 && t.pc == 0x1004#64) ∧
    gives 32 0x803120AF (poke ((bench.wx 2#5 0x3000#64).wx 3#5 0x5#64) 0x3000#64 4 0x80000000#64)
      (fun t => t.rx 1#5 == 0xFFFFFFFF80000000#64 && memRead t.mem 0x3000#64 4 == 0x80000000#64 && t.pc == 0x1004#64) ∧
    gives 32 0xA03120AF (poke ((bench.wx 2#5 0x3000#64).wx 3#5 0x5#64) 0x3000#64 4 0x80000000#64)
      (fun t => t.rx 1#5 == 0xFFFFFFFF80000000#64 && memRead t.mem 0x3000#64 4 == 0x5#64 && t.pc == 0x1004#64) := by decide

theorem test_step_amominuW_to_amomaxuW :
    gives 32 0xC03120AF (poke ((bench.wx 2#5 0x3000#64).wx 3#5 0x5#64) 0x3000#64 4 0x80000000#64)
      (fun t => t.rx 1#5 == 0xFFFFFFFF80000000#64 && memRead t.mem 0x3000#64 4 == 0x5#64 && t.pc == 0x1004#64) ∧
    gives 32 0xE03120AF (poke ((bench.wx 2#5 0x3000#64).wx 3#5 0x5#64) 0x3000#64 4 0x80000000#64)
      (fun t => t.rx 1#5 == 0xFFFFFFFF80000000#64 && memRead t.mem 0x3000#64 4 == 0x80000000#64 && t.pc == 0x1004#64) := by decide

theorem test_step_amoswapD_to_amomaxD :
    gives 32 0x083130AF (poke ((bench.wx 2#5 0x3000#64).wx 3#5 0x5#64) 0x3000#64 8 0x8000000000000001#64)
      (fun t => t.rx 1#5 == 0x8000000000000001#64 && memRead t.mem 0x3000#64 8 == 0x5#64 && t.pc == 0x1004#64) ∧
    gives 32 0x003130AF (poke ((bench.wx 2#5 0x3000#64).wx 3#5 0x5#64) 0x3000#64 8 0x8000000000000001#64)
      (fun t => t.rx 1#5 == 0x8000000000000001#64 && memRead t.mem 0x3000#64 8 == 0x8000000000000006#64 && t.pc == 0x1004#64) ∧
    gives 32 0x263130AF (poke ((bench.wx 2#5 0x3000#64).wx 3#5 0x5#64) 0x3000#64 8 0x180000000#64)
      (fun t => t.rx 1#5 == 0x180000000#64 && memRead t.mem 0x3000#64 8 == 0x180000005#64 && t.pc == 0x1004#64) ∧
    gives 32 0x603130AF (poke ((bench.wx 2#5 0x3000#64).wx 3#5 0x5#64) 0x3000#64 8 0x8000000000000001#64)
      (fun t => t.rx 1#5 == 0x8000000000000001#64 && memRead t.mem 0x3000#64 8 == 0x1#64 && t.pc == 0x1004#64) ∧
    gives 32 0x403130AF (poke ((bench.wx 2#5 0x3000#64).wx 3#5 0x5#64) 0x3000#64 8 0x8000000000000001#64)
      (fun t => t.rx 1#5 == 0x8000000000000001#64 && memRead t.mem 0x3000#64 8 == 0x8000000000000005#64 && t.pc == 0x1004#64) ∧
    gives 32 0x803130AF (poke ((bench.wx 2#5 0x3000#64).wx 3#5 0x5#64) 0x3000#64 8 0x180000000#64)
      (fun t => t.rx 1#5 == 0x180000000#64 && memRead t.mem 0x3000#64 8 == 0x5#64 && t.pc == 0x1004#64) ∧
    gives 32 0xA03130AF (poke ((bench.wx 2#5 0x3000#64).wx 3#5 0x5#64) 0x3000#64 8 0x8000000000000001#64)
      (fun t => t.rx 1#5 == 0x8000000000000001#64 && memRead t.mem 0x3000#64 8 == 0x5#64 && t.pc == 0x1004#64) := by decide

theorem test_step_amominuD_to_amomaxuD :
    gives 32 0xC03130AF (poke ((bench.wx 2#5 0x3000#64).wx 3#5 0x5#64) 0x3000#64 8 0x8000000000000001#64)
      (fun t => t.rx 1#5 == 0x8000000000000001#64 && memRead t.mem 0x3000#64 8 == 0x5#64 && t.pc == 0x1004#64) ∧
    gives 32 0xE03130AF (poke ((bench.wx 2#5 0x3000#64).wx 3#5 0x5#64) 0x3000#64 8 0x8000000000000001#64)
      (fun t => t.rx 1#5 == 0x8000000000000001#64 && memRead t.mem 0x3000#64 8 == 0x8000000000000001#64 && t.pc == 0x1004#64) := by decide

theorem test_step_csrrw_to_csrrci :
    gives 32 0x003110F3 ((bench.withFcsr 0x85#8).wx 2#5 0xFFFFFFFFFFFFFF01#64)
      (fun t => t.rx 1#5 == 0x85#64 && t.fcsr == 0x1#8 && t.pc == 0x1004#64) ∧
    gives 32 0x003020F3 (bench.withFcsr 0x85#8) (fun t => t.rx 1#5 == 0x85#64 && t.pc == 0x1004#64) ∧
    gives 32 0x003130F3 ((bench.withFcsr 0xFF#8).wx 2#5 0xE0#64)
      (fun t => t.rx 1#5 == 0xFF#64 && t.fcsr == 0x1F#8 && t.pc == 0x1004#64) ∧
    gives 32 0x002FD0F3 bench (fun t => t.rx 1#5 == 0x0#64 && t.fcsr == 0xE0#8 && t.pc == 0x1004#64) ∧
    gives 32 0x00106073 (bench.withFcsr 0x1F#8) (fun t => t.rx 0#5 == 0x0#64 && t.pc == 0x1004#64) ∧
    gives 32 0x001FF0F3 (bench.withFcsr 0x15#8)
      (fun t => t.rx 1#5 == 0x15#64 && t.fcsr == 0x0#8 && t.pc == 0x1004#64) := by decide

theorem test_step_flw_to_faddS :
    gives 32 0x00012087 (poke (bench.wx 2#5 0x2000#64) 0x2000#64 4 0x3FC00000#64)
      (fun t => t.rf 1#5 == 0xFFFFFFFF3FC00000#64 && t.fcsr == 0x0#8 && t.pc == 0x1004#64) ∧
    gives 32 0x00112227 ((bench.wx 2#5 0x2000#64).wf 1#5 0x40490FDB#64)
      (fun t => memRead t.mem 0x2004#64 4 == 0x40490FDB#64 && t.pc == 0x1004#64) ∧
    gives 32 0x203100C3 (((bench.wf 2#5 0xFFFFFFFF3F800800#64).wf 3#5 0xFFFFFFFF3F800800#64).wf 4#5 0xFFFFFFFFBF801000#64)
      (fun t => t.rf 1#5 == 0xFFFFFFFF33800000#64 && t.fcsr == 0x0#8 && t.pc == 0x1004#64) ∧
    gives 32 0x203100C7 (((bench.wf 2#5 0xFFFFFFFF40000000#64).wf 3#5 0xFFFFFFFF40400000#64).wf 4#5 0xFFFFFFFF3F800000#64)
      (fun t => t.rf 1#5 == 0xFFFFFFFF40A00000#64 && t.fcsr == 0x0#8 && t.pc == 0x1004#64) ∧
    gives 32 0x203100CB (((bench.wf 2#5 0xFFFFFFFF40000000#64).wf 3#5 0xFFFFFFFF40400000#64).wf 4#5 0xFFFFFFFF3F800000#64)
      (fun t => t.rf 1#5 == 0xFFFFFFFFC0A00000#64 && t.fcsr == 0x0#8 && t.pc == 0x1004#64) ∧
    gives 32 0x203100CF (((bench.wf 2#5 0xFFFFFFFF40000000#64).wf 3#5 0xFFFFFFFF40400000#64).wf 4#5 0xFFFFFFFF3F800000#64)
      (fun t => t.rf 1#5 == 0xFFFFFFFFC0E00000#64 && t.fcsr == 0x0#8 && t.pc == 0x1004#64) ∧
    gives 32 0x003100D3 (((bench.withFcsr 0xA0#8).wf 2#5 0xFFFFFFFF3F800000#64).wf 3#5 0xFFFFFFFF3F800000#64)
      (fun t => t.rf 1#5 == 0xFFFFFFFF40000000#64 && t.fcsr == 0xA0#8 && t.pc == 0x1004#64) := by decide

theorem test_step_fsubS_to_fsgnjxS :
    gives 32 0x082100D3 (bench.wf 2#5 0xFFFFFFFF3FC00000#64)
      (fun t => t.rf 1#5 == 0xFFFFFFFF00000000#64 && t.fcsr == 0x0#8 && t.pc == 0x1004#64) ∧
    gives 32 0x103100D3 ((bench.wf 2#5 0xFFFFFFFF00000000#64).wf 3#5 0xFFFFFFFF80000000#64)
      (fun t => t.rf 1#5 == 0xFFFFFFFF80000000#64 && t.fcsr == 0x0#8 && t.pc == 0x1004#64) ∧
    gives 32 0x183100D3 ((bench.wf 2#5 0xFFFFFFFF3F800000#64).wf 3#5 0xFFFFFFFF80000000#64)
      (fun t => t.rf 1#5 == 0xFFFFFFFFFF800000#64 && t.fcsr == 0x8#8 && t.pc == 0x1004#64) ∧
    gives 32 0x580100D3 (bench.wf 2#5 0xFFFFFFFF40000000#64)
      (fun t => t.rf 1#5 == 0xFFFFFFFF3FB504F3#64 && t.fcsr == 0x1#8 && t.pc == 0x1004#64) ∧
    gives 32 0x203100D3 (((bench.withFcsr 0xC0#8).wf 2#5 0xFFFFFFFF3F800000#64).wf 3#5 0xFFFFFFFF3F800000#64)
      (fun t => t.rf 1#5 == 0xFFFFFFFF3F800000#64 && t.fcsr == 0xC0#8 && t.pc == 0x1004#64) ∧
    gives 32 0x202110D3 (bench.wf 2#5 0xFFFFFFFF3F800000#64)
      (fun t => t.rf 1#5 == 0xFFFFFFFFBF800000#64 && t.fcsr == 0x0#8 && t.pc == 0x1004#64) ∧
    gives 32 0x202120D3 (bench.wf 2#5 0xFFFFFFFFBF800000#64)
      (fun t => t.rf 1#5 == 0xFFFFFFFF3F800000#64 && t.fcsr == 0x0#8 && t.pc == 0x1004#64) := by decide

theorem test_step_fminS_to_fmvXW :
    gives 32 0x283100D3 ((bench.wf 2#5 0xFFFFFFFF00000000#64).wf 3#5 0xFFFFFFFF80000000#64)
      (fun t => t.rf 1#5 == 0xFFFFFFFF80000000#64 && t.fcsr == 0x0#8 && t.pc == 0x1004#64) ∧
    gives 32 0x283110D3 ((bench.wf 2#5 0xFFFFFFFF80000000#64).wf 3#5 0xFFFFFFFF00000000#64)
      (fun t => t.rf 1#5 == 0xFFFFFFFF00000000#64 && t.fcsr == 0x0#8 && t.pc == 0x1004#64) ∧
    gives 32 0xC00110D3 (bench.wf 2#5 0xFFFFFFFFBFC00000#64)
      (fun t => t.rx 1#5 == 0xFFFFFFFFFFFFFFFF#64 && t.fcsr == 0x1#8 && t.pc == 0x1004#64) ∧
    gives 32 0xC01110D3 (bench.wf 2#5 0xFFFFFFFFBF000000#64)
      (fun t => t.rx 1#5 == 0x0#64 && t.fcsr == 0x1#8 && t.pc == 0x1004#64) ∧
    gives 32 0xC02110D3 (bench.wf 2#5 0xFFFFFFFFDF000000#64)
      (fun t => t.rx 1#5 == 0x8000000000000000#64 && t.pc == 0x1004#64) ∧
    gives 32 0xC03130D3 (bench.wf 2#5 0xFFFFFFFF3FA00000#64)
      (fun t => t.rx 1#5 == 0x2#64 && t.fcsr == 0x1#8 && t.pc == 0x1004#64) ∧
    gives 32 0xE00100D3 (bench.wf 2#5 0xFFFFFFFFBF800000#64)
      (fun t => t.rx 1#5 == 0xFFFFFFFFBF800000#64 && t.pc == 0x1004#64) := by decide

theorem test_step_feqS_to_fcvtSL :
    gives 32 0xA03120D3 ((bench.wf 2#5 0xFFFFFFFF7FC00000#64).wf 3#5 0xFFFFFFFF7FC00000#64)
      (fun t => t.rx 1#5 == 0x0#64 && t.pc == 0x1004#64) ∧
    gives 32 0xA03110D3 ((bench.wf 2#5 0xFFFFFFFF7FC00000#64).wf 3#5 0xFFFFFFFF3F800000#64)
      (fun t => t.rx 1#5 == 0x0#64 && t.fcsr == 0x10#8 && t.pc == 0x1004#64) ∧
    gives 32 0xA03100D3 ((bench.wf 2#5 0xFFFFFFFF80000000#64).wf 3#5 0xFFFFFFFF00000000#64)
      (fun t => t.rx 1#5 == 0x1#64 && t.pc == 0x1004#64) ∧
    gives 32 0xE00110D3 (bench.wf 2#5 0xFFFFFFFFFF800000#64) (fun t => t.rx 1#5 == 0x1#64 && t.pc == 0x1004#64) ∧
    gives 32 0xD00100D3 (bench.wx 2#5 0xFFFFFFFF80000000#64)
      (fun t => t.rf 1#5 == 0xFFFFFFFFCF000000#64 && t.fcsr == 0x0#8 && t.pc == 0x1004#64) ∧
    gives 32 0xD01110D3 (bench.wx 2#5 0x12345678FFFFFFFF#64)
      (fun t => t.rf 1#5 == 0xFFFFFFFF4F7FFFFF#64 && t.fcsr == 0x1#8 && t.pc == 0x1004#64) ∧
    gives 32 0xD02100D3 (bench.wx 2#5 0x8000000000000000#64)
      (fun t => t.rf 1#5 == 0xFFFFFFFFDF000000#64 && t.fcsr == 0x0#8 && t.pc == 0x1004#64) := by decide

theorem test_step_fcvtSLU_to_fmvWX :
    gives 32 0xD03100D3 (bench.wx 2#5 0xFFFFFFFFFFFFFFFF#64)
      (fun t => t.rf 1#5 == 0xFFFFFFFF5F800000#64 && t.fcsr == 0x1#8 && t.pc == 0x1004#64) ∧
    gives 32 0xF00100D3 (bench.wx 2#5 0x123456787FC00001#64)
      (fun t => t.rf 1#5 == 0xFFFFFFFF7FC00001#64 && t.fcsr == 0x0#8 && t.pc == 0x1004#64) := by decide

theorem test_step_fld_to_faddD :
    gives 32 0x00813087 (poke (bench.wx 2#5 0x2000#64) 0x2008#64 8 0x400921FB54442D18#64)
      (fun t => t.rf 1#5 == 0x400921FB54442D18#64 && t.fcsr == 0x0#8 && t.pc == 0x1004#64) ∧
    gives 32 0x00113027 ((bench.wx 2#5 0x2000#64).wf 1#5 0xFFFFFFFF3F800000#64)
      (fun t => memRead t.mem 0x2000#64 8 == 0xFFFFFFFF3F800000#64 && t.pc == 0x1004#64) ∧
    gives 32 0x223100C3 (((bench.wf 2#5 0x9E50000000000000#64).wf 3#5 0x1E50000000000000#64).wf 4#5 0x10000000000000#64)
      (fun t => t.rf 1#5 == 0x10000000000000#64 && t.fcsr == 0x1#8 && t.pc == 0x1004#64) ∧
    gives 32 0x223100C7 (((bench.wf 2#5 0x3FF0000000000000#64).wf 3#5 0x3FF0000000000000#64).wf 4#5 0x3FF0000000000000#64)
      (fun t => t.rf 1#5 == 0x0#64 && t.fcsr == 0x0#8 && t.pc == 0x1004#64) ∧
    gives 32 0x223100CB (((bench.wf 2#5 0x7FF0000000000000#64).wf 3#5 0x4000000000000000#64).wf 4#5 0x7FF0000000000000#64)
      (fun t => t.rf 1#5 == 0x7FF8000000000000#64 && t.fcsr == 0x10#8 && t.pc == 0x1004#64) ∧
    gives 32 0x223100CF (((bench.wf 2#5 0x3FF0000000000000#64).wf 3#5 0x4000000000000000#64).wf 4#5 0x3FE0000000000000#64)
      (fun t => t.rf 1#5 == 0xC004000000000000#64 && t.fcsr == 0x0#8 && t.pc == 0x1004#64) ∧
    gives 32 0x023100D3 ((bench.wf 2#5 0x3FB999999999999A#64).wf 3#5 0x3FC999999999999A#64)
      (fun t => t.rf 1#5 == 0x3FD3333333333334#64 && t.fcsr == 0x1#8 && t.pc == 0x1004#64) := by decide +kernel

theorem test_step_fsubD_to_fsgnjxD :
    gives 32 0x0A3100D3 ((bench.wf 2#5 0x7FF0000000000000#64).wf 3#5 0x7FF0000000000000#64)
      (fun t => t.rf 1#5 == 0x7FF8000000000000#64 && t.fcsr == 0x10#8 && t.pc == 0x1004#64) ∧
    gives 32 0x123100D3 ((bench.wf 2#5 0x8000000000000000#64).wf 3#5 0x0#64)
      (fun t => t.rf 1#5 == 0x8000000000000000#64 && t.fcsr == 0x0#8 && t.pc == 0x1004#64) ∧
    gives 32 0x1A3100D3 ((bench.wf 2#5 0x3FF0000000000000#64).wf 3#5 0x4008000000000000#64)
      (fun t => t.rf 1#5 == 0x3FD5555555555555#64 && t.fcsr == 0x1#8 && t.pc == 0x1004#64) ∧
    gives 32 0x5A0100D3 (bench.wf 2#5 0x4000000000000000#64)
      (fun t => t.rf 1#5 == 0x3FF6A09E667F3BCD#64 && t.fcsr == 0x1#8 && t.pc == 0x1004#64) ∧
    gives 32 0x223100D3 ((bench.wf 2#5 0x4000000000000000#64).wf 3#5 0x8000000000000000#64)
      (fun t => t.rf 1#5 == 0xC000000000000000#64 && t.fcsr == 0x0#8 && t.pc == 0x1004#64) ∧
    gives 32 0x223110D3 ((bench.wf 2#5 0x7FF8000000000000#64).wf 3#5 0x0#64)
      (fun t => t.rf 1#5 == 0xFFF8000000000000#64 && t.fcsr == 0x0#8 && t.pc == 0x1004#64) ∧
    gives 32 0x223120D3 ((bench.wf 2#5 0xC008000000000000#64).wf 3#5 0xBFF0000000000000#64)
      (fun t => t.rf 1#5 == 0x4008000000000000#64 && t.fcsr == 0x0#8 && t.pc == 0x1004#64) := by decide

theorem test_step_fminD_to_fleD :
    gives 32 0x2A3100D3 ((bench.wf 2#5 0x3FF0000000000000#64).wf 3#5 0x7FF0000000000001#64)
      (fun t => t.rf 1#5 == 0x3FF0000000000000#64 && t.fcsr == 0x10#8 && t.pc == 0x1004#64) ∧
    gives 32 0x2A3110D3 ((bench.wf 2#5 0xFFF0000000000000#64).wf 3#5 0xFFEFFFFFFFFFFFFF#64)
      (fun t => t.rf 1#5 == 0xFFEFFFFFFFFFFFFF#64 && t.fcsr == 0x0#8 && t.pc == 0x1004#64) ∧
    gives 32 0x401100D3 (bench.wf 2#5 0x3FB999999999999A#64)
      (fun t => t.rf 1#5 == 0xFFFFFFFF3DCCCCCD#64 && t.fcsr == 0x1#8 && t.pc == 0x1004#64) ∧
    gives 32 0x420100D3 (bench.wf 2#5 0xFFFFFFFF7F800001#64)
      (fun t => t.rf 1#5 == 0x7FF8000000000000#64 && t.fcsr == 0x10#8 && t.pc == 0x1004#64) ∧
    gives 32 0xA23120D3 ((bench.wf 2#5 0x3FF0000000000000#64).wf 3#5 0x3FF0000000000000#64)
      (fun t => t.rx 1#5 == 0x1#64 && t.pc == 0x1004#64) ∧
    gives 32 0xA23110D3 ((bench.wf 2#5 0x3FF0000000000000#64).wf 3#5 0x7FF0000000000001#64)
      (fun t => t.rx 1#5 == 0x0#64 && t.fcsr == 0x10#8 && t.pc == 0x1004#64) ∧
    gives 32 0xA23100D3 ((bench.wf 2#5 0xFFF0000000000000#64).wf 3#5 0xFFF0000000000000#64)
      (fun t => t.rx 1#5 == 0x1#64 && t.pc == 0x1004#64) := by decide

theorem test_step_fclassD_to_fcvtDW :
    gives 32 0xE20110D3 (bench.wf 2#5 0xFFFFFFFFFFFFF#64) (fun t => t.rx 1#5 == 0x20#64 && t.pc == 0x1004#64) ∧
    gives 32 0xC20100D3 (bench.wf 2#5 0x41DFFFFFFFE00000#64)
      (fun t => t.rx 1#5 == 0x7FFFFFFF#64 && t.fcsr == 0x10#8 && t.pc == 0x1004#64) ∧
    gives 32 0xC21110D3 (bench.wf 2#5 0x41EFFFFFFFFCCCCD#64)
      (fun t => t.rx 1#5 == 0xFFFFFFFFFFFFFFFF#64 && t.fcsr == 0x1#8 && t.pc == 0x1004#64) ∧
    gives 32 0xC22110D3 (bench.wf 2#5 0x43E0000000000000#64)
      (fun t => t.rx 1#5 == 0x7FFFFFFFFFFFFFFF#64 && t.fcsr == 0x10#8 && t.pc == 0x1004#64) ∧
    gives 32 0xC23110D3 (bench.wf 2#5 0x43EFFFFFFFFFFFFF#64)
      (fun t => t.rx 1#5 == 0xFFFFFFFFFFFFF800#64 && t.pc == 0x1004#64) ∧
    gives 32 0xE20100D3 (bench.wf 2#5 0xFFFFFFFF3F800000#64)
      (fun t => t.rx 1#5 == 0xFFFFFFFF3F800000#64 && t.pc == 0x1004#64) ∧
    gives 32 0xD20100D3 (bench.wx 2#5 0x80000000#64)
      (fun t => t.rf 1#5 == 0xC1E0000000000000#64 && t.fcsr == 0x0#8 && t.pc == 0x1004#64) := by decide

theorem test_step_fcvtDWU_to_fmvDX :
    gives 32 0xD21100D3 (bench.wx 2#5 0xFFFFFFFF80000000#64)
      (fun t => t.rf 1#5 == 0x41E0000000000000#64 && t.fcsr == 0x0#8 && t.pc == 0x1004#64) ∧
    gives 32 0xD22130D3 (bench.wx 2#5 0x20000000000001#64)
      (fun t => t.rf 1#5 == 0x4340000000000001#64 && t.fcsr == 0x1#8 && t.pc == 0x1004#64) ∧
    gives 32 0xD23100D3 (bench.wx 2#5 0xFFFFFFFFFFFFFFFF#64)
      (fun t => t.rf 1#5 == 0x43F0000000000000#64 && t.fcsr == 0x1#8 && t.pc == 0x1004#64) ∧
    gives 32 0xF20100D3 (bench.wx 2#5 0x7FF0000000000001#64)
      (fun t => t.rf 1#5 == 0x7FF0000000000001#64 && t.fcsr == 0x0#8 && t.pc == 0x1004#64) := by decide

theorem test_step_cAddi4spn_to_cSd :
    gives 16 0x0800 (bench.wx 2#5 0x3000#64) (fun t => t.rx 8#5 == 0x3010#64 && t.pc == 0x1002#64) ∧
    gives 16 0x3C64 (poke (bench.wx 8#5 0x2000#64) 0x20F8#64 8 0x3FF0000000000000#64)
      (fun t => t.rf 9#5 == 0x3FF0000000000000#64 && t.fcsr == 0x0#8 && t.pc == 0x1002#64) ∧
    gives 16 0x4044 (poke (bench.wx 8#5 0x2000#64) 0x2004#64 4 0x80000001#64)
      (fun t => t.rx 9#5 == 0xFFFFFFFF80000001#64 && t.pc == 0x1002#64) ∧
    gives 16 0x6404 (poke (bench.wx 8#5 0x2000#64) 0x2008#64 8 0x123456789ABCDEF#64)
      (fun t => t.rx 9#5 == 0x123456789ABCDEF#64 && t.pc == 0x1002#64) ∧
    gives 16 0xA404 ((bench.wx 8#5 0x2000#64).wf 9#5 0x4000000000000000#64)
      (fun t => memRead t.mem 0x2008#64 8 == 0x4000000000000000#64 && t.pc == 0x1002#64) ∧
    gives 16 0xDC64 ((bench.wx 8#5 0x2000#64).wx 9#5 0xAABBCCDD#64)
      (fun t => memRead t.mem 0x207C#64 4 == 0xAABBCCDD#64 && t.pc == 0x1002#64) ∧
    gives 16 0xE004 ((bench.wx 8#5 0x2000#64).wx 9#5 0x102030405060708#64)
      (fun t => memRead t.mem 0x2000#64 8 == 0x102030405060708#64 && t.pc == 0x1002#64) := by decide

theorem test_step_cNop_to_cSrli :
    gives 16 0x0001 (bench.withPc 0x1FFE#64) (fun t => t.rx 0#5 == 0x0#64 && t.pc == 0x2000#64) ∧
    gives 16 0x1501 (bench.wx 10#5 0x0#64) (fun t => t.rx 10#5 == 0xFFFFFFFFFFFFFFE0#64 && t.pc == 0x1002#64) ∧
    gives 16 0x2505 (bench.wx 10#5 0x7FFFFFFF#64) (fun t => t.rx 10#5 == 0xFFFFFFFF80000000#64 && t.pc == 0x1002#64) ∧
    gives 16 0x557D bench (fun t => t.rx 10#5 == 0xFFFFFFFFFFFFFFFF#64 && t.pc == 0x1002#64) ∧
    gives 16 0x7101 (bench.wx 2#5 0x3000#64) (fun t => t.rx 2#5 == 0x2E00#64 && t.pc == 0x1002#64) ∧
    gives 16 0x7501 bench (fun t => t.rx 10#5 == 0xFFFFFFFFFFFE0000#64 && t.pc == 0x1002#64) ∧
    gives 16 0x907D (bench.wx 8#5 0x8000000000000000#64) (fun t => t.rx 8#5 == 0x1#64 && t.pc == 0x1002#64) := by decide

theorem test_step_cSrai_to_cSubw :
    gives 16 0x9401 (bench.wx 8#5 0x8000000000000000#64)
      (fun t => t.rx 8#5 == 0xFFFFFFFF80000000#64 && t.pc == 0x1002#64) ∧
    gives 16 0x9879 (bench.wx 8#5 0x7#64) (fun t => t.rx 8#5 == 0x6#64 && t.pc == 0x1002#64) ∧
    gives 16 0x8C05 ((bench.wx 8#5 0x1#64).wx 9#5 0x2#64)
      (fun t => t.rx 8#5 == 0xFFFFFFFFFFFFFFFF#64 && t.pc == 0x1002#64) ∧
    gives 16 0x8C25 ((bench.wx 8#5 0x6#64).wx 9#5 0x3#64) (fun t => t.rx 8#5 == 0x5#64 && t.pc == 0x1002#64) ∧
    gives 16 0x8C45 ((bench.wx 8#5 0x6#64).wx 9#5 0x3#64) (fun t => t.rx 8#5 == 0x7#64 && t.pc == 0x1002#64) ∧
    gives 16 0x8C65 ((bench.wx 8#5 0x6#64).wx 9#5 0x3#64) (fun t => t.rx 8#5 == 0x2#64 && t.pc == 0x1002#64) ∧
    gives 16 0x9C05 ((bench.wx 8#5 0x80000000#64).wx 9#5 0x1#64)
      (fun t => t.rx 8#5 == 0x7FFFFFFF#64 && t.pc == 0x1002#64) := by decide

theorem test_step_cAddw_to_cLwsp :
    gives 16 0x9C25 ((bench.wx 8#5 0x7FFFFFFF#64).wx 9#5 0x1#64)
      (fun t => t.rx 8#5 == 0xFFFFFFFF80000000#64 && t.pc == 0x1002#64) ∧
    gives 16 0xB001 (bench.withPc 0x1800#64) (fun t => t.rx 0#5 == 0x0#64 && t.pc == 0x1000#64) ∧
    gives 16 0xCC7D (bench.wx 8#5 0x0#64) (fun t => t.pc == 0x10FE#64) ∧
    gives 16 0xF001 (bench.wx 8#5 0x0#64) (fun t => t.pc == 0x1002#64) ∧
    gives 16 0x157E (bench.wx 10#5 0x1#64) (fun t => t.rx 10#5 == 0x8000000000000000#64 && t.pc == 0x1002#64) ∧
    gives 16 0x2522 (poke (bench.wx 2#5 0x2000#64) 0x2008#64 8 0x4000000000000000#64)
      (fun t => t.rf 10#5 == 0x4000000000000000#64 && t.fcsr == 0x0#8 && t.pc == 0x1002#64) ∧
    gives 16 0x557E (poke (bench.wx 2#5 0x2000#64) 0x20FC#64 4 0xFFFFFFFF#64)
      (fun t => t.rx 10#5 == 0xFFFFFFFFFFFFFFFF#64 && t.pc == 0x1002#64) := by decide

theorem test_step_cLdsp_to_cFsdsp :
    gives 16 0x757E (poke (bench.wx 2#5 0x2000#64) 0x21F8#64 8 0x1122334455667788#64)
      (fun t => t.rx 10#5 == 0x1122334455667788#64 && t.pc == 0x1002#64) ∧
    gives 16 0x8082 (bench.wx 1#5 0x1801#64) (fun t => t.rx 0#5 == 0x0#64 && t.pc == 0x1800#64) ∧
    gives 16 0x852E (bench.wx 11#5 0x2A#64) (fun t => t.rx 10#5 == 0x2A#64 && t.pc == 0x1002#64) ∧
    gives 16 0x9002 bench (stops (.breakpoint) 0x1000#64) ∧
    gives 16 0x9282 (bench.wx 5#5 0x1100#64) (fun t => t.rx 1#5 == 0x1002#64 && t.pc == 0x1100#64) ∧
    gives 16 0x952E ((bench.wx 10#5 0x28#64).wx 11#5 0x2#64) (fun t => t.rx 10#5 == 0x2A#64 && t.pc == 0x1002#64) ∧
    gives 16 0xA82A ((bench.wx 2#5 0x2000#64).wf 10#5 0x8000000000000000#64)
      (fun t => memRead t.mem 0x2010#64 8 == 0x8000000000000000#64 && t.pc == 0x1002#64) := by decide

theorem test_step_cSwsp_to_cSdsp :
    gives 16 0xC22A ((bench.wx 2#5 0x2000#64).wx 10#5 0x1122334455667788#64)
      (fun t => memRead t.mem 0x2004#64 4 == 0x55667788#64 && t.pc == 0x1002#64) ∧
    gives 16 0xE02A ((bench.wx 2#5 0x2000#64).wx 10#5 0x1122334455667788#64)
      (fun t => memRead t.mem 0x2000#64 8 == 0x1122334455667788#64 && t.pc == 0x1002#64) := by decide

/-! ## Corners (95_test_vectors.md V1 to V11) -/

theorem test_reserved_words_1 :
    gives 16 0x0000 bench (stops (.decodeFailure 0x0000#32) 0x1000#64) ∧
    gives 16 0x001F bench (stops (.decodeFailure 0x001F#32) 0x1000#64) ∧
    gives 32 0x30200073 bench (stops (.decodeFailure 0x30200073#32) 0x1000#64) ∧
    gives 32 0x003150D3 ((bench.wf 2#5 0xFFFFFFFF3F800000#64).wf 3#5 0xFFFFFFFF3F800000#64)
      (stops (.decodeFailure 0x003150D3#32) 0x1000#64) ∧
    gives 32 0x004020F3 bench (stops (.decodeFailure 0x004020F3#32) 0x1000#64) ∧
    gives 32 0x0201109B (bench.wx 2#5 0x1#64) (stops (.decodeFailure 0x0201109B#32) 0x1000#64) := by decide

theorem test_reserved_words_2 :
    gives 32 0x00007003 bench (stops (.decodeFailure 0x00007003#32) 0x1000#64) := by decide

theorem test_stop_priority_1 :
    gives 32 0x003100B3 (bench.withPc 0x1001#64) (stops (.misalignedFetch 0x1001#64) 0x1001#64) ∧
    gives 32 0x003100B3 (bench.withPc 0x800#64) (stops (.memoryFault 0x0800#64 .fetch) 0x800#64) ∧
    gives 16 0x001F (bench.withPc 0x1FFE#64) (stops (.decodeFailure 0x001F#32) 0x1FFE#64) ∧
    gives 32 0x003100B3 (bench.withPc 0x1FFE#64) (stops (.memoryFault 0x2000#64 .fetch) 0x1FFE#64) ∧
    gives 16 0x0001 (bench.withPc 0x1FFE#64) (fun t => t.rx 0#5 == 0x0#64 && t.pc == 0x2000#64) ∧
    gives 32 0x003170D3 (bench.withFcsr 0xA0#8) (stops (.illegalRoundingMode 5#3) 0x1000#64) := by decide

theorem test_stop_priority_2 :
    gives 32 0x003170D3 (bench.withFcsr 0xE0#8) (stops (.illegalRoundingMode 7#3) 0x1000#64) ∧
    gives 32 0x003100D3 (((bench.withFcsr 0xA0#8).wf 2#5 0xFFFFFFFF3F800000#64).wf 3#5 0xFFFFFFFF3F800000#64)
      (fun t => t.rf 1#5 == 0xFFFFFFFF40000000#64 && t.fcsr == 0xA0#8 && t.pc == 0x1004#64) ∧
    gives 32 0x203100D3 (((bench.withFcsr 0xC0#8).wf 2#5 0xFFFFFFFF3F800000#64).wf 3#5 0xFFFFFFFF3F800000#64)
      (fun t => t.rf 1#5 == 0xFFFFFFFF3F800000#64 && t.fcsr == 0xC0#8 && t.pc == 0x1004#64) ∧
    gives 32 0x00111083 (bench.wx 2#5 0x5000#64) (stops (.misalignedAccess 0x5001#64) 0x1000#64) ∧
    gives 32 0x00111083 ((splitting bench).wx 2#5 0x5000#64) (stops (.memoryFault 0x5001#64 .read) 0x1000#64) ∧
    gives 32 0x003120AF (bench.wx 2#5 0x5002#64) (stops (.misalignedAtomic 0x5002#64) 0x1000#64) := by decide

theorem test_division_corners_1 :
    gives 32 0x023140B3 ((bench.wx 2#5 0x5#64).wx 3#5 0x0#64)
      (fun t => t.rx 1#5 == 0xFFFFFFFFFFFFFFFF#64 && t.pc == 0x1004#64) ∧
    gives 32 0x023140B3 ((bench.wx 2#5 0x8000000000000000#64).wx 3#5 0xFFFFFFFFFFFFFFFF#64)
      (fun t => t.rx 1#5 == 0x8000000000000000#64 && t.pc == 0x1004#64) ∧
    gives 32 0x023160B3 ((bench.wx 2#5 0x8000000000000000#64).wx 3#5 0xFFFFFFFFFFFFFFFF#64)
      (fun t => t.rx 1#5 == 0x0#64 && t.pc == 0x1004#64) ∧
    gives 32 0x023160B3 ((bench.wx 2#5 0xFFFFFFFFFFFFFFFB#64).wx 3#5 0x0#64)
      (fun t => t.rx 1#5 == 0xFFFFFFFFFFFFFFFB#64 && t.pc == 0x1004#64) ∧
    gives 32 0x023140BB ((bench.wx 2#5 0x80000000#64).wx 3#5 0xFFFFFFFF#64)
      (fun t => t.rx 1#5 == 0xFFFFFFFF80000000#64 && t.pc == 0x1004#64) ∧
    gives 32 0x023160BB ((bench.wx 2#5 0xFFFFFFF9#64).wx 3#5 0x0#64)
      (fun t => t.rx 1#5 == 0xFFFFFFFFFFFFFFF9#64 && t.pc == 0x1004#64) := by decide

theorem test_single_corners_1 :
    gives 32 0x003140D3 ((bench.wf 2#5 0xFFFFFFFF3F800000#64).wf 3#5 0xFFFFFFFF33800000#64)
      (fun t => t.rf 1#5 == 0xFFFFFFFF3F800001#64 && t.fcsr == 0x1#8 && t.pc == 0x1004#64) ∧
    gives 32 0x003170D3 (((bench.withFcsr 0x60#8).wf 2#5 0xFFFFFFFF3F800000#64).wf 3#5 0xFFFFFFFF33800000#64)
      (fun t => t.rf 1#5 == 0xFFFFFFFF3F800001#64 && t.fcsr == 0x61#8 && t.pc == 0x1004#64) ∧
    gives 32 0x003100D3 ((bench.wf 2#5 0x3F800000#64).wf 3#5 0xFFFFFFFF3F800000#64)
      (fun t => t.rf 1#5 == 0xFFFFFFFF7FC00000#64 && t.fcsr == 0x0#8 && t.pc == 0x1004#64) ∧
    gives 32 0x003120D3 ((bench.wf 2#5 0xFFFFFFFF00000000#64).wf 3#5 0xFFFFFFFF80000000#64)
      (fun t => t.rf 1#5 == 0xFFFFFFFF80000000#64 && t.fcsr == 0x0#8 && t.pc == 0x1004#64) ∧
    gives 32 0x103100D3 ((bench.wf 2#5 0xFFFFFFFF00000001#64).wf 3#5 0xFFFFFFFF3F000000#64)
      (fun t => t.rf 1#5 == 0xFFFFFFFF00000000#64 && t.fcsr == 0x3#8 && t.pc == 0x1004#64) ∧
    gives 32 0x203100C3 (((bench.wf 2#5 0xFFFFFFFF7F800000#64).wf 3#5 0xFFFFFFFF00000000#64).wf 4#5 0xFFFFFFFF7FC00000#64)
      (fun t => t.rf 1#5 == 0xFFFFFFFF7FC00000#64 && t.fcsr == 0x10#8 && t.pc == 0x1004#64) := by decide

theorem test_single_corners_2 :
    gives 32 0x203100CF (((bench.wf 2#5 0xFFFFFFFF00000000#64).wf 3#5 0xFFFFFFFF3F800000#64).wf 4#5 0xFFFFFFFF00000000#64)
      (fun t => t.rf 1#5 == 0xFFFFFFFF80000000#64 && t.fcsr == 0x0#8 && t.pc == 0x1004#64) ∧
    gives 32 0x203100D3 ((bench.wf 2#5 0xFFFFFFFF7F800001#64).wf 3#5 0xFFFFFFFFBF800000#64)
      (fun t => t.rf 1#5 == 0xFFFFFFFFFF800001#64 && t.fcsr == 0x0#8 && t.pc == 0x1004#64) ∧
    gives 32 0x283110D3 ((bench.wf 2#5 0xFFFFFFFF7F800001#64).wf 3#5 0xFFFFFFFF40000000#64)
      (fun t => t.rf 1#5 == 0xFFFFFFFF40000000#64 && t.fcsr == 0x10#8 && t.pc == 0x1004#64) ∧
    gives 32 0xC00110D3 (bench.wf 2#5 0xFFFFFFFF4F000000#64)
      (fun t => t.rx 1#5 == 0x7FFFFFFF#64 && t.fcsr == 0x10#8 && t.pc == 0x1004#64) := by decide

theorem test_double_corners_1 :
    gives 32 0x023100D3 ((bench.wf 2#5 0xFFFFFFFF3F800000#64).wf 3#5 0x3FF0000000000000#64)
      (fun t => t.rf 1#5 == 0x7FF8000000000000#64 && t.fcsr == 0x0#8 && t.pc == 0x1004#64) ∧
    gives 32 0x123100D3 ((bench.wf 2#5 0x10000000000000#64).wf 3#5 0x3FEFFFFFFFFFFFFF#64)
      (fun t => t.rf 1#5 == 0x10000000000000#64 && t.fcsr == 0x3#8 && t.pc == 0x1004#64) ∧
    gives 32 0x223100C3 (((bench.wf 2#5 0x9E50000000000000#64).wf 3#5 0x1E50000000000000#64).wf 4#5 0x10000000000000#64)
      (fun t => t.rf 1#5 == 0x10000000000000#64 && t.fcsr == 0x1#8 && t.pc == 0x1004#64) ∧
    gives 32 0x223120C7 (((bench.wf 2#5 0x3FF0000000000000#64).wf 3#5 0x3FF0000000000000#64).wf 4#5 0x3FF0000000000000#64)
      (fun t => t.rf 1#5 == 0x8000000000000000#64 && t.fcsr == 0x0#8 && t.pc == 0x1004#64) ∧
    gives 32 0xC20100D3 (bench.wf 2#5 0xC1E0000000100000#64)
      (fun t => t.rx 1#5 == 0xFFFFFFFF80000000#64 && t.fcsr == 0x1#8 && t.pc == 0x1004#64) := by decide +kernel

theorem test_jump_corners_1 :
    gives 32 0x004282E7 (bench.wx 5#5 0x1800#64) (fun t => t.rx 5#5 == 0x1004#64 && t.pc == 0x1804#64) ∧
    gives 32 0x000100E7 (bench.wx 2#5 0xFFFFFFFFFFFFFFFF#64)
      (fun t => t.rx 1#5 == 0x1004#64 && t.pc == 0xFFFFFFFFFFFFFFFE#64) := by decide

theorem test_access_corners_1 :
    gives 32 0x00212083 (poke (poke (bench.wx 2#5 0x2000#64) 0x2000#64 8 0x8877665544332211#64) 0x2008#64 8 0xFFEEDDCCBBAA9988#64)
      (stops (.misalignedAccess 0x2002#64) 0x1000#64) ∧
    gives 32 0x00212083 (poke (poke ((splitting bench).wx 2#5 0x2000#64) 0x2000#64 8 0x8877665544332211#64) 0x2008#64 8 0xFFEEDDCCBBAA9988#64)
      (fun t => t.rx 1#5 == 0x66554433#64 && t.pc == 0x1004#64) ∧
    gives 32 0xFFC13083 (poke (poke ((splitting bench).wx 2#5 0x2000#64) 0x2000#64 8 0x8877665544332211#64) 0x2008#64 8 0xFFEEDDCCBBAA9988#64)
      (fun t => t.rx 1#5 == 0x4433221100000000#64 && t.pc == 0x1004#64) ∧
    gives 32 0x00013003 (bench.wx 2#5 0x5000#64) (stops (.memoryFault 0x5000#64 .read) 0x1000#64) ∧
    gives 32 0x00114083 (bench.wx 2#5 0xFFFFFFFFFFFFFFFF#64) (stops (.memoryFault 0x0000#64 .read) 0x1000#64) ∧
    gives 32 0xFE313E23 ((splitting bench).wx 2#5 0x2000#64) (stops (.memoryFault 0x1FFC#64 .write) 0x1000#64) := by decide

theorem test_access_corners_2 :
    gives 32 0x00312023 (bench.wx 2#5 0x4000#64) (stops (.memoryFault 0x4000#64 .write) 0x1000#64) := by decide

theorem test_atomic_corners_1 :
    gives 32 0x183120AF (poke (((reserving bench (some ⟨0x3000#64, 4⟩)).wx 2#5 0x3000#64).wx 3#5 0x5#64) 0x3000#64 4 0x80000000#64)
      (fun t => t.rx 1#5 == 0x0#64 && memRead t.mem 0x3000#64 4 == 0x5#64 && t.resv == none && t.pc == 0x1004#64) ∧
    gives 32 0x183120AF (poke (((reserving bench none).wx 2#5 0x3000#64).wx 3#5 0x5#64) 0x3000#64 4 0x80000000#64)
      (fun t => t.rx 1#5 == 0x1#64 && memRead t.mem 0x3000#64 4 == 0x80000000#64 && t.pc == 0x1004#64) ∧
    gives 32 0x183120AF (poke (((reserving bench (some ⟨0x3000#64, 8⟩)).wx 2#5 0x3000#64).wx 3#5 0x5#64) 0x3000#64 4 0x80000000#64)
      (fun t => t.rx 1#5 == 0x1#64 && memRead t.mem 0x3000#64 4 == 0x80000000#64 && t.resv == none && t.pc == 0x1004#64) ∧
    gives 32 0x183130AF (bench.wx 2#5 0x3004#64) (stops (.misalignedAtomic 0x3004#64) 0x1000#64) ∧
    gives 32 0x100130AF (poke (bench.wx 2#5 0x4000#64) 0x4000#64 1 0x7#64)
      (fun t => t.rx 1#5 == 0x7#64 && t.pc == 0x1004#64) ∧
    gives 32 0x403120AF (bench.wx 2#5 0x4000#64) (stops (.memoryFault 0x4000#64 .write) 0x1000#64) := by decide

theorem test_csr_corners_1 :
    gives 32 0x003110F3 ((bench.withFcsr 0x85#8).wx 2#5 0xFFFFFFFFFFFFFF01#64)
      (fun t => t.rx 1#5 == 0x85#64 && t.fcsr == 0x1#8 && t.pc == 0x1004#64) ∧
    gives 32 0x003020F3 (bench.withFcsr 0x85#8) (fun t => t.rx 1#5 == 0x85#64 && t.pc == 0x1004#64) ∧
    gives 32 0x001120F3 ((bench.withFcsr 0x1#8).wx 2#5 0xFFFFFFFFFFFFFFE2#64)
      (fun t => t.rx 1#5 == 0x1#64 && t.fcsr == 0x3#8 && t.pc == 0x1004#64) ∧
    gives 32 0x002FD0F3 bench (fun t => t.rx 1#5 == 0x0#64 && t.fcsr == 0xE0#8 && t.pc == 0x1004#64) ∧
    gives 32 0x00106073 (bench.withFcsr 0x1F#8) (fun t => t.rx 0#5 == 0x0#64 && t.pc == 0x1004#64) := by decide

theorem test_compressed_corners_1 :
    gives 16 0x9282 (bench.wx 5#5 0x1100#64) (fun t => t.rx 1#5 == 0x1002#64 && t.pc == 0x1100#64) ∧
    gives 16 0x9082 (bench.wx 1#5 0x1100#64) (fun t => t.rx 1#5 == 0x1002#64 && t.pc == 0x1100#64) ∧
    gives 16 0x0004 bench (stops (.decodeFailure 0x0004#32) 0x1000#64) ∧
    gives 16 0x2001 bench (stops (.decodeFailure 0x2001#32) 0x1000#64) ∧
    gives 16 0x8002 bench (stops (.decodeFailure 0x8002#32) 0x1000#64) ∧
    gives 16 0x9C41 bench (stops (.decodeFailure 0x9C41#32) 0x1000#64) := by decide

theorem test_compressed_corners_2 :
    gives 16 0x0005 bench (fun t => t.rx 0#5 == 0x0#64 && t.pc == 0x1002#64) := by decide

/-! ## The host and the fetch -/

theorem test_stopped_for_good :
    (match step (stopped .breakpoint bench) with | .fault (.stoppedForGood _) => true | _ => false) = true := by decide

/-- The word the host places at reset runs as the next step (R851). -/
theorem test_fetch_word :
    (match step (State.reset.withFetchWord 32 0x00500093) with | .next t => t.rx 1#5 == 5#64 | _ => false) = true := by
  decide

/-- MappedAll as a test that computes. -/
theorem mappedAll_iff (s : State) (a : Word) (n : Nat) (k : AccessKind) :
    MappedAll s a n k ↔ (accessBytes a n).all (fun b => mapped s.params b k) = true := by
  simp [MappedAll]

/-! ## Cases that meet the hypotheses of the statements -/

theorem witness_DecodeOfEncode :
    (Instr.jal 1#5 0x1FFFFE#21).wf = true ∧ (Instr.cLui 31#5 0x3F000#18).wf = true ∧ (Instr.cJr 31#5).wf = true := by
  decide

theorem witness_EncodeOfDecode :
    decode [0xB3#8, 0x00#8, 0x31#8, 0x00#8, 0xFF#8] = .instr (.add 1#5 2#5 3#5) [0xFF#8] := by decide

theorem witness_LengthByLowBits :
    decode (0x01#8 :: 0x00#8 :: []) = .instr (.cNop 0#6) [] ∧
    decode (0xB3#8 :: 0x00#8 :: [0x31#8, 0x00#8]) = .instr (.add 1#5 2#5 3#5) [] ∧ (0xFF#8).toNat % 32 = 31 := by decide

theorem witness_ReservedWordsRejected :
    ((0x8000#16).extractLsb' 0 2 = 0b00#2 ∧ (0x8000#16).extractLsb' 13 3 = 0b100#3) ∧
    ((0x0004#16).extractLsb' 0 2 = 0b00#2 ∧ (0x0004#16).extractLsb' 13 3 = 0b000#3 ∧
      (0x0004#16).extractLsb' 5 8 = 0#8) ∧
    ((0x2001#16).extractLsb' 0 2 = 0b01#2 ∧ (0x2001#16).extractLsb' 13 3 = 0b001#3 ∧
      (0x2001#16).extractLsb' 7 5 = 0#5) ∧
    ((0x6081#16).extractLsb' 13 3 = 0b011#3 ∧ (0x6081#16).extractLsb' 12 1 = 0#1 ∧ (0x6081#16).extractLsb' 2 5 = 0#5) ∧
    ((0x9C41#16).extractLsb' 10 6 = 0b100111#6 ∧ (0x9C41#16).extractLsb' 6 1 = 1#1) ∧
    ((0x4002#16).extractLsb' 0 2 = 0b10#2 ∧ (0x4002#16).extractLsb' 7 5 = 0#5 ∧
      (0x4002#16).extractLsb' 13 3 = 0b010#3) ∧
    ((0x8002#16).extractLsb' 12 4 = 0b1000#4 ∧ (0x8002#16).extractLsb' 2 5 = 0#5) ∧
    (0x0000000B#32).extractLsb' 0 7 ∈ [0x0B#7, 0x2B#7, 0x5B#7, 0x7B#7, 0x57#7, 0x77#7, 0x6B#7] ∧
    ((0x203160C3#32).extractLsb' 0 7 ∈ [0x43#7, 0x47#7, 0x4B#7, 0x4F#7, 0x53#7] ∧
      (0x203160C3#32).extractLsb' 12 3 = 6#3) ∧
    ((0x003150D3#32).extractLsb' 0 7 ∈ [0x43#7, 0x47#7, 0x4B#7, 0x4F#7, 0x53#7] ∧
      (0x003150D3#32).extractLsb' 12 3 = 5#3) ∧
    ((0x004020F3#32).extractLsb' 0 7 = 0x73#7 ∧ (0x004020F3#32).extractLsb' 12 3 ≠ 0#3 ∧
      ¬ (1 ≤ ((0x004020F3#32).extractLsb' 20 12).toNat ∧ ((0x004020F3#32).extractLsb' 20 12).toNat ≤ 3)) := by decide

theorem witness_StepRunsDecoded :
    let s := placed 32 0x003100B3 bench
    s.status = .running ∧ s.pc.toNat % 2 = 0 ∧
    decode ((accessBytes s.pc 4).map fun a => byteAt s.mem a.toNat) = .instr (.add 1#5 2#5 3#5) [] ∧
    MappedAll s s.pc (Instr.add 1#5 2#5 3#5).len .fetch ∧ (Instr.add 1#5 2#5 3#5).mnemonic ∉ s.params.withheld := by
  simp only [mappedAll_iff]
  decide +kernel

/-- A 16-bit instruction in the last two bytes of the code page: the bytes after it need no mapping. -/
theorem witness_StepRunsDecoded_last_parcel :
    let s := placed 16 0x0001 (bench.withPc 0x1FFE#64)
    s.status = .running ∧ s.pc.toNat % 2 = 0 ∧
    decode ((accessBytes s.pc 4).map fun a => byteAt s.mem a.toNat) = .instr (.cNop 0#6) [0x00#8, 0x00#8] ∧
    MappedAll s s.pc (Instr.cNop 0#6).len .fetch ∧ (Instr.cNop 0#6).mnemonic ∉ s.params.withheld := by
  simp only [mappedAll_iff]
  decide +kernel

theorem witness_FetchStops_pc :
    ((bench.withPc 0x1001#64).status = .running ∧ (bench.withPc 0x1001#64).pc.toNat % 2 = 1) ∧
    ((bench.withPc 0x2000#64).pc.toNat % 2 = 0 ∧ ¬ MappedAll (bench.withPc 0x2000#64) 0x2000#64 2 .fetch) := by
  simp only [mappedAll_iff]
  decide +kernel

theorem witness_FetchStops_parcel :
    let p0 := fun s : State => byteAt s.mem (s.pc + 1#64).toNat ++ byteAt s.mem (s.pc + 0#64).toNat
    let ok := fun s : State => s.status = .running ∧ s.pc.toNat % 2 = 0 ∧ MappedAll s s.pc 2 .fetch
    (ok (placed 16 0xFFFF bench) ∧ (p0 (placed 16 0xFFFF bench)).toNat % 32 = 31) ∧
    (ok (placed 16 0x0001 (without "C.NOP" bench)) ∧ (p0 (placed 16 0x0001 (without "C.NOP" bench))).toNat % 4 ≠ 3 ∧
      Instr.cNop 0#6 ∈ decode16 (p0 (placed 16 0x0001 (without "C.NOP" bench))) ∧
      (Instr.cNop 0#6).mnemonic ∈ (placed 16 0x0001 (without "C.NOP" bench)).params.withheld) ∧
    (ok (placed 16 0x9002 bench) ∧ (p0 (placed 16 0x8002 bench)).toNat % 4 ≠ 3 ∧
      decode16 (p0 (placed 16 0x8002 bench)) = none) := by
  simp only [mappedAll_iff]
  decide +kernel

theorem witness_FetchStops_word :
    let p0 := fun s : State => byteAt s.mem (s.pc + 1#64).toNat ++ byteAt s.mem (s.pc + 0#64).toNat
    let w := fun s : State => byteAt s.mem (s.pc + 3#64).toNat ++ byteAt s.mem (s.pc + 2#64).toNat ++ p0 s
    let ok := fun s : State => s.status = .running ∧ s.pc.toNat % 2 = 0 ∧ MappedAll s s.pc 2 .fetch ∧
      (p0 s).toNat % 4 = 3 ∧ (p0 s).toNat % 32 ≠ 31
    let edge := placed 32 0x003100B3 (bench.withPc 0x1FFE#64)
    let bad := placed 32 0x0000000B bench
    let withheld := placed 32 0x003100B3 (without "ADD" bench)
    (ok edge ∧ ¬ MappedAll edge (edge.pc + 2#64) 2 .fetch) ∧
    (ok bad ∧ MappedAll bad (bad.pc + 2#64) 2 .fetch ∧ decode32 (w bad) = none) ∧
    (ok withheld ∧ Instr.add 1#5 2#5 3#5 ∈ decode32 (w withheld) ∧
      (Instr.add 1#5 2#5 3#5).mnemonic ∈ withheld.params.withheld) := by
  simp only [mappedAll_iff]
  decide +kernel

theorem witness_StopsArePrecise :
    (placed 32 0x00013003 (bench.wx 2#5 0x5000#64)).status = .running ∧
    gives 32 0x00013003 (bench.wx 2#5 0x5000#64) (stops (.memoryFault 0x5000#64 .read) 0x1000#64) := by decide

theorem witness_StoppedForGood :
    (stopped .breakpoint bench).status = .stopped { event := .breakpoint, pc := 0x1000#64, hart := 0 } ∧
    StopEvent.breakpoint.code ≤ 7 ∧ ({ bench with status := .ended 7#64 } : State).status = .ended 7#64 := by decide

theorem witness_SyscallResumes :
    let e := StopEvent.syscall 64#64 1#64 0#64 0#64 0#64 0#64 0#64
    (stopped e bench).status = .stopped { event := e, pc := 0x1000#64, hart := 0 } ∧ e.isSyscall = true ∧
    Memory.wf (stopped e bench).mem = true ∧
    ([(0x2000#64, 1#8), (0x2000#64, 2#8)] : List (Word × Byte)) = [(0x2000#64, 1#8)] ++ (0x2000#64, 2#8) :: [] ∧
    bench.params.lrscMode = .plain ∧ (reserving bench none).params.lrscMode = .reserve := by decide

theorem witness_StepKeepsInvariant :
    Inv (placed 32 0x1002A0AF (reserving (bench.wx 5#5 0x3000#64) (some ⟨0x2008#64, 8⟩))) ∧
    ∃ t, step (placed 32 0x1002A0AF (reserving (bench.wx 5#5 0x3000#64) (some ⟨0x2008#64, 8⟩))) = .next t := by
  refine ⟨⟨by decide, by decide, by decide, ?_, ?_, ?_⟩, ⟨_, rfl⟩⟩
  · exact fun h => absurd (show LrscMode.reserve = .plain from h) (by decide)
  · rintro r h
    obtain rfl : (⟨0x2008#64, 8⟩ : Reservation) = r := Option.some.inj h
    decide
  · exact fun r h => absurd (show Status.running = .stopped r from h) (by simp)

theorem witness_RunningStepKeepsParams :
    (placed 32 0x00000073 bench).status = .running ∧
    gives 32 0x00000073 bench (stops (.syscall 0#64 0#64 0#64 0#64 0#64 0#64 0#64) 0x1000#64) := by decide

/-- Aligned accesses, the last byte of a page, and in split mode accesses that wrap at the top of the address space. -/
theorem witness_LoadsReadBytes :
    MappedAll bench 0x4FFF#64 1 .read ∧
    (PlainAligned bench 0x4FFE#64 2 ∧ MappedAll bench 0x4FFE#64 2 .read) ∧
    (PlainAligned bench 0x4FFC#64 4 ∧ MappedAll bench 0x4FFC#64 4 .read) ∧
    (PlainAligned bench 0x1000#64 8 ∧ MappedAll bench 0x1000#64 8 .read) ∧
    (PlainAligned (splitting State.reset) 0xFFFFFFFFFFFFFFFF#64 2 ∧
      MappedAll (splitting State.reset) 0xFFFFFFFFFFFFFFFF#64 2 .read) ∧
    (PlainAligned (splitting State.reset) 0xFFFFFFFFFFFFFFFD#64 8 ∧
      MappedAll (splitting State.reset) 0xFFFFFFFFFFFFFFFD#64 8 .read) := by
  simp only [mappedAll_iff, PlainAligned]
  decide +kernel

theorem witness_StoresWriteBytes :
    Memory.wf (poke bench 0x2000#64 8 0x0102030405060708#64).mem = true ∧ MappedAll bench 0x3FFF#64 1 .write ∧
    (PlainAligned bench 0x3FFE#64 2 ∧ MappedAll bench 0x3FFE#64 2 .write) ∧
    (PlainAligned bench 0x2000#64 4 ∧ MappedAll bench 0x2000#64 4 .write) ∧
    (PlainAligned bench 0x3FF8#64 8 ∧ MappedAll bench 0x3FF8#64 8 .write) ∧
    (PlainAligned (splitting State.reset) 0xFFFFFFFFFFFFFFFD#64 8 ∧
      MappedAll (splitting State.reset) 0xFFFFFFFFFFFFFFFD#64 8 .write) := by
  simp only [mappedAll_iff, PlainAligned]
  decide +kernel

theorem witness_MisalignedStops :
    (dataRequest (.lh 1#5 2#5 1#12) bench = some (.load 1#64 2) ∧ ¬ AtomicRequest (.load 1#64 2) ∧
      bench.params.misalignedPlain = .fault ∧ (1#64).toNat % 2 ≠ 0) ∧
    (dataRequest (.cSdsp 1#5 0#9) (bench.wx 2#5 0x2004#64) = some (.store 0x2004#64 8 0#64) ∧
      (0x2004#64).toNat % 8 ≠ 0) ∧
    (dataRequest (.amoaddW 1#5 2#5 3#5 false false) (bench.wx 2#5 0x2002#64) =
        some (.amo .add 0x2002#64 4 0#64 false false) ∧
      AtomicRequest (.amo .add 0x2002#64 4 0#64 false false) ∧ (0x2002#64).toNat % 4 ≠ 0) := by
  refine ⟨⟨by decide, id, by decide, by decide⟩, by decide, by decide, trivial, by decide⟩

/-- A read of a page with none; an AMO on a page that is read-only; and in split mode a store over a page's end. -/
theorem witness_UnmappedAccessStops :
    (dataRequest (.ld 1#5 2#5 0#12) (bench.wx 2#5 0x5000#64) = some (.load 0x5000#64 8) ∧
      PassesAlignment bench (.load 0x5000#64 8) ∧ ∃ b ∈ accessBytes 0x5000#64 8, mapped bench.params b .read = false) ∧
    (PassesAlignment bench (.amo .or 0x4000#64 4 0#64 false false) ∧
      ∃ b ∈ accessBytes 0x4000#64 4, mapped bench.params b .write = false) ∧
    (PassesAlignment (splitting bench) (.store 0x3FFE#64 4 0#64) ∧
      ∃ b ∈ accessBytes 0x3FFE#64 4, mapped (splitting bench).params b .write = false) := by
  exact ⟨⟨by decide, .inl (by decide), 0x5000#64, by decide, by decide⟩, ⟨.inl (by decide), 0x4000#64, by decide,
    by decide⟩, ⟨.inr ⟨id, by decide⟩, 0x4000#64, by decide, by decide⟩⟩

theorem witness_MixedWidthReads : Memory.wf (poke bench 0x2000#64 8 (-1#64)).mem = true ∧ 4 + 4 ≤ 8 ∧ 0 + 2 ≤ 2 := by
  decide

theorem witness_MemoryChangesByEvents :
    let s := placed 32 0x00312023 (bench.wx 2#5 0x2000#64)
    (∃ t, step s = .next t) ∧
    ∀ e ∈ stepEvents 0 s, e.kind = .write ∨ e.kind = .rmw → 0x2004#64 ∉ accessBytes e.addr e.bytes := by
  refine ⟨⟨_, rfl⟩, by decide⟩

theorem witness_LoadReserved :
    ((0x4FFC#64).toNat % 4 = 0 ∧ MappedAll bench 0x4FFC#64 4 .read) ∧
    ((0x4FF8#64).toNat % 8 = 0 ∧ MappedAll bench 0x4FF8#64 8 .read) ∧ bench.params.lrscMode = .plain ∧
    (reserving bench none).params.lrscMode = .reserve := by
  simp only [mappedAll_iff]
  decide +kernel

theorem witness_StoreConditional :
    Memory.wf bench.mem = true ∧ ((0x3FFC#64).toNat % 4 = 0 ∧ MappedAll bench 0x3FFC#64 4 .write) ∧
    ((0x3FF8#64).toNat % 8 = 0 ∧ MappedAll bench 0x3FF8#64 8 .write) ∧ bench.params.lrscMode = .plain ∧
    (reserving bench (some ⟨0x3FFC#64, 4⟩)).resv = some { addr := 0x3FFC#64, bytes := 4 } ∧
    (reserving bench (some ⟨0x3FFC#64, 4⟩)).otherHartWrote = false ∧
    ¬ ((reserving bench none).params.lrscMode = .plain ∨ ((reserving bench none).resv =
      some { addr := 0x3FFC#64, bytes := 4 } ∧ (reserving bench none).otherHartWrote = false)) := by
  simp only [mappedAll_iff]
  decide +kernel

theorem witness_AtomicReadModifyWrite :
    Memory.wf bench.mem = true ∧
    ((0x2000#64).toNat % 4 = 0 ∧ MappedAll bench 0x2000#64 4 .read ∧ MappedAll bench 0x2000#64 4 .write) ∧
    ((0x3FF8#64).toNat % 8 = 0 ∧ MappedAll bench 0x3FF8#64 8 .read ∧ MappedAll bench 0x3FF8#64 8 .write) := by
  simp only [mappedAll_iff]
  decide +kernel

theorem witness_AtomicOrders :
    let s := bench.wx 2#5 0x2000#64
    dataEvents 0 (.lrW 1#5 2#5 true false) s ≠ [] ∧ dataEvents 0 (.lrD 1#5 2#5 true false) s ≠ [] ∧
    dataEvents 0 (.scW 1#5 2#5 3#5 false true) s ≠ [] ∧
    dataEvents 0 (.scD 1#5 2#5 3#5 false true) (reserving s (some ⟨0x2000#64, 8⟩)) ≠ [] ∧
    dataEvents 0 (.amoaddW 1#5 2#5 3#5 true true) s ≠ [] ∧ dataEvents 0 (.amomaxuD 1#5 2#5 3#5 true true) s ≠ [] := by
  decide

theorem witness_RoundingModes : 5 ≤ (bench.withFcsr 0xA0#8).fcsr.toNat / 32 ∧ 5 ≤ (bench.withFcsr 0xFF#8).fcsr.toNat / 32 := by
  decide

/-- For SingleArithmetic, DoubleArithmetic and ConversionsComplete: a static mode whatever frm holds, and DYN with frm 4. -/
theorem witness_effective_mode :
    effectiveMode .rup (bench.withFcsr 0xFF#8).fcsr = some .rup ∧ effectiveMode .dyn (bench.withFcsr 0x80#8).fcsr = some .rmm := by
  decide

theorem witness_NaNBoxing :
    (0x000000003F800000#64).toNat / 2 ^ 32 ≠ 0xFFFFFFFF ∧ (0xFFFFFFFE00000000#64).toNat / 2 ^ 32 ≠ 0xFFFFFFFF := by decide

/-- Signaling and quiet NaNs of both formats, and an infinity times a zero. -/
theorem witness_NaNOperands :
    IsNaN fmtD 0xFFF8000000000001#64 ∧ ¬ IsSNaN fmtD 0xFFF8000000000001#64 ∧ IsSNaN fmtD 0x7FF0000000000001#64 ∧
    IsNaN fmtS 0xFFC00001#32 ∧ ¬ IsSNaN fmtS 0xFFC00001#32 ∧ IsSNaN fmtS 0x7F800001#32 ∧
    infTimesZero (fmtD.datum 0x7FF0000000000000#64) (fmtD.datum 0#64) = true := by
  unfold IsSNaN IsNaN
  decide

theorem witness_InvalidAndDivideByZero :
    fmtS.datum 0x7F800000#32 = .inf false ∧ fmtS.datum 0xFF800000#32 = .inf true ∧
    fmtS.datum 0x00000000#32 = .fin false 0 (-149) ∧ fmtS.datum 0x80000000#32 = .fin true 0 (-149) ∧
    fmtS.datum 0x3F800000#32 = .fin false (2 ^ 23) (-23) ∧ fmtS.datum 0xBF800000#32 = .fin true (2 ^ 23) (-23) ∧
    fmtD.datum 0x7FF0000000000000#64 = .inf false := by decide

theorem witness_formats : IsFormat fmtS ∧ IsFormat fmtD := ⟨.inl ⟨rfl, rfl, rfl⟩, .inr ⟨rfl, rfl, rfl⟩⟩

/-- 1 + (-1) and (-0) + (-0); 1 - 1 and (+0) - (-0); and 1 * 1 - 1 and -(1 * -0) + 0 fused. -/
theorem witness_ZeroSums :
    fmtS.datum 0x3F800000#32 = .fin false (2 ^ 23) (-23) ∧ fmtS.datum 0xBF800000#32 = .fin true (2 ^ 23) (-23) ∧
    fmtS.datum 0x80000000#32 = .fin true 0 (-149) ∧
    ratOf false (2 ^ 23) (-23) + ratOf true (2 ^ 23) (-23) = 0 ∧ ratOf true 0 (-149) + ratOf true 0 (-149) = 0 ∧
    ratOf false 0 (-149) - ratOf true 0 (-149) = 0 ∧
    ratOf false (2 ^ 23) (-23) * ratOf false (2 ^ 23) (-23) + -ratOf false (2 ^ 23) (-23) = 0 ∧
    -(ratOf false (2 ^ 23) (-23) * ratOf true 0 (-149)) + ratOf false 0 (-149) = 0 ∧
    (fmtS.nmsub, true, false) ∈ fusedForms fmtS := by
  refine ⟨by decide, by decide, by decide, ?_, ?_, ?_, ?_, ?_, by simp [fusedForms]⟩ <;> norm_num [ratOf]

/-- The doubles 2 and 1 denote 2 and 1. -/
theorem denotes_two_and_one : Denotes fmtD 0x4000000000000000#64 2 ∧ Denotes fmtD 0x3FF0000000000000#64 1 :=
  ⟨⟨false, 2 ^ 52, -51, by decide, by norm_num [ratOf]⟩, ⟨false, 2 ^ 52, -52, by decide, by norm_num [ratOf]⟩⟩

/-- The singles 2.5 and 1 denote 5/2 and 1. -/
theorem denotes_singles : Denotes fmtS 0x40200000#32 (5 / 2) ∧ Denotes fmtS 0x3F800000#32 1 :=
  ⟨⟨false, 10485760, -22, by decide, by norm_num [ratOf]⟩, ⟨false, 2 ^ 23, -23, by decide, by norm_num [ratOf]⟩⟩

theorem witness_FiniteArithmeticRounds :
    IsFormat fmtD ∧ Denotes fmtD 0x4000000000000000#64 2 ∧ Denotes fmtD 0x3FF0000000000000#64 1 ∧
    (2 + 1 : ℚ) ≠ 0 ∧ (2 - 1 : ℚ) ≠ 0 ∧ (2 * 1 : ℚ) ≠ 0 ∧ (2 * 1 + 1 : ℚ) ≠ 0 ∧ (2 * 1 - 1 : ℚ) ≠ 0 ∧
    (-(2 * 1) + 1 : ℚ) ≠ 0 ∧ (-(2 * 1) - 1 : ℚ) ≠ 0 :=
  ⟨witness_formats.2, denotes_two_and_one.1, denotes_two_and_one.2, by norm_num, by norm_num, by norm_num, by norm_num,
    by norm_num, by norm_num, by norm_num⟩

theorem witness_RoundToFormat :
    IsFormat fmtS ∧ (fmtS.round .rne true 1 3).2 &&& flagOF = 0#5 ∧
    (fmtD.round .rup false 1 (1 <<< 1075)).2 &&& flagOF = 0#5 := ⟨witness_formats.1, by decide, by decide +kernel⟩

/-- 2^128 overflows in every mode; the tie above the largest single overflows to the nearest. -/
theorem witness_OverflowAndUnderflow :
    IsFormat fmtS ∧ ((2 : ℚ) ^ (128 : ℤ) ≤ (2 ^ 128 : ℕ) / (1 : ℕ)) ∧
    (Nearest .rne ∧ (2 : ℚ) ^ (128 : ℤ) - (2 : ℚ) ^ (103 : ℤ) ≤ ((2 ^ 25 - 1) * 2 ^ 103 : ℕ) / (1 : ℕ)) ∧
    (¬ Nearest .rtz ∧ ¬ AwayFromZero .rtz false) := by
  refine ⟨witness_formats.1, by norm_num, ⟨.inl rfl, by norm_num⟩, ?_, ?_⟩ <;> simp [Nearest, AwayFromZero]

theorem witness_SquareRootRounds :
    IsFormat fmtD ∧ Denotes fmtD 0x4000000000000000#64 2 ∧ (0 : ℚ) < 2 ∧ Denotes fmtD 0x3FF0000000000000#64 1 ∧
    (0 : ℚ) < 1 := ⟨witness_formats.2, denotes_two_and_one.1, by norm_num, denotes_two_and_one.2, by norm_num⟩

/-- NaNs of both formats, and pairs in order by value: 1 and 2, and -infinity and 1. -/
theorem witness_MinMaxSelect :
    IsNaN fmtD 0x7FF8000000000000#64 ∧ ¬ IsNaN fmtD 0x3FF0000000000000#64 ∧ IsSNaN fmtD 0x7FF0000000000001#64 ∧
    IsNaN fmtS 0x7FC00000#32 ∧ ¬ IsNaN fmtS 0x3F800000#32 ∧ IsSNaN fmtS 0x7F800001#32 ∧
    DatumLt (fmtD.datum 0x3FF0000000000000#64) (fmtD.datum 0x4000000000000000#64) ∧
    DatumLt (fmtS.datum 0xFF800000#32) (fmtS.datum 0x3F800000#32) := by
  have h1 : fmtD.datum 0x3FF0000000000000#64 = .fin false (2 ^ 52) (-52) := by decide
  have h2 : fmtD.datum 0x4000000000000000#64 = .fin false (2 ^ 52) (-51) := by decide
  have h3 : fmtS.datum 0xFF800000#32 = .inf true := by decide
  have h4 : fmtS.datum 0x3F800000#32 = .fin false (2 ^ 23) (-23) := by decide
  rw [h1, h2, h3, h4]
  refine ⟨?_, ?_, ?_, ?_, ?_, ?_, by norm_num [DatumLt, ratOf], trivial⟩ <;> simp only [IsSNaN, IsNaN] <;> decide

theorem witness_ComparesByValue :
    (IsNaN fmtS 0x7FC00000#32 ∨ IsNaN fmtS 0x3F800000#32) ∧ ¬ (IsNaN fmtS 0x3F800000#32 ∨ IsNaN fmtS 0x80000000#32) ∧
    (IsSNaN fmtS 0x7F800001#32 ∨ IsSNaN fmtS 0x3F800000#32) ∧
    ¬ (IsSNaN fmtS 0x7FC00000#32 ∨ IsSNaN fmtS 0x3F800000#32) ∧
    (IsNaN fmtD 0x7FF8000000000000#64 ∨ IsNaN fmtD 0#64) ∧ ¬ (IsNaN fmtD 0x3FF0000000000000#64 ∨ IsNaN fmtD 0#64) := by
  unfold IsSNaN IsNaN
  decide

/-- NaNs, infinities, and in each range of a conversion to W: inside, and past each bound. -/
theorem witness_FloatToIntSaturates :
    fmtD.datum 0x7FF0000000000001#64 = .nan true ∧ fmtD.datum 0x7FF0000000000000#64 = .inf false ∧
    fmtD.datum 0xFFF0000000000000#64 = .inf true ∧ Denotes fmtS 0x40200000#32 (5 / 2) ∧
    Denotes fmtS 0x4F000000#32 (2 ^ 31) ∧ Denotes fmtS 0xCF000001#32 (-(2 ^ 31 + 2 ^ 8)) := by
  refine ⟨by decide, by decide, by decide, denotes_singles.1, ⟨false, 2 ^ 23, 8, by decide, by norm_num [ratOf]⟩,
    ⟨true, 2 ^ 23 + 1, 8, by decide, by norm_num [ratOf]⟩⟩

theorem witness_IntToFloatRounds :
    sW 0#64 = 0 ∧ (uW 0#64 : Int) = 0 ∧ sW (-1#64) ≠ 0 ∧ (uW (-1#64) : Int) ≠ 0 ∧ (-1#64 : Word).toInt ≠ 0 := by decide

/-- A number, an infinity and a signaling NaN to widen; 1, -0, an infinity and a quiet NaN to narrow. -/
theorem witness_ConversionValues :
    Denotes fmtS 0x3F800000#32 1 ∧ fmtS.datum 0xFF800000#32 = .inf true ∧ IsSNaN fmtS 0x7F800001#32 ∧
    Denotes fmtD 0x3FF0000000000000#64 1 ∧ (1 : ℚ) ≠ 0 ∧ fmtD.datum 0x8000000000000000#64 = .fin true 0 (-1074) ∧
    fmtD.datum 0x7FF0000000000000#64 = .inf false ∧ IsNaN fmtD 0xFFF8000000000001#64 :=
  ⟨denotes_singles.2, by decide, by unfold IsSNaN IsNaN; decide, denotes_two_and_one.2, by norm_num, by decide, by decide,
    by unfold IsNaN; decide⟩

theorem witness_FlagsAreSticky :
    (∃ t, exec (.fdivS 1#5 2#5 3#5 .rne) (bench.withFcsr 0x01#8) = .next t) ∧
    ∀ rd c r u, Instr.fdivS 1#5 2#5 3#5 .rne ≠ .csrrw rd c r ∧ Instr.fdivS 1#5 2#5 3#5 .rne ≠ .csrrs rd c r ∧
      Instr.fdivS 1#5 2#5 3#5 .rne ≠ .csrrc rd c r ∧ Instr.fdivS 1#5 2#5 3#5 .rne ≠ .csrrwi rd c u ∧
      Instr.fdivS 1#5 2#5 3#5 .rne ≠ .csrrsi rd c u ∧ Instr.fdivS 1#5 2#5 3#5 .rne ≠ .csrrci rd c u :=
  ⟨⟨_, rfl⟩, fun _ _ _ _ => by simp⟩

theorem witness_CompressedMemory :
    let s := (bench.wx 8#5 0x2000#64).wx 2#5 0x3000#64
    let off := fun (r : XReg) (u : Nat) => s.rx r + BitVec.ofNat 64 u
    Memory.wf s.mem = true ∧
    (∀ k ∈ [AccessKind.read, .write], PlainAligned s (off 8#5 124) 4 ∧ MappedAll s (off 8#5 124) 4 k) ∧
    (∀ k ∈ [AccessKind.read, .write], PlainAligned s (off 8#5 248) 8 ∧ MappedAll s (off 8#5 248) 8 k) ∧
    (∀ k ∈ [AccessKind.read, .write], PlainAligned s (off 2#5 252) 4 ∧ MappedAll s (off 2#5 252) 4 k) ∧
    (∀ k ∈ [AccessKind.read, .write], PlainAligned s (off 2#5 504) 8 ∧ MappedAll s (off 2#5 504) 8 k) := by
  simp only [mappedAll_iff, PlainAligned]
  decide +kernel

theorem witness_CompressedIsExpansion :
    (Instr.cAddi16sp 0x3C0#10).wf = true ∧ (Instr.cAddi16sp 0x3C0#10).len = 2 ∧
    (∀ j r b, Instr.cAddi16sp 0x3C0#10 ≠ .cJ j ∧ Instr.cAddi16sp 0x3C0#10 ≠ .cJr r ∧
      Instr.cAddi16sp 0x3C0#10 ≠ .cJalr r ∧ Instr.cAddi16sp 0x3C0#10 ≠ .cBeqz r b ∧
      Instr.cAddi16sp 0x3C0#10 ≠ .cBnez r b) ∧
    (Instr.cEbreak).wf = true ∧ (Instr.cEbreak).len = 2 :=
  ⟨by decide, by decide, fun _ _ _ => by simp, by decide, by decide⟩

/-! ## The decoder's record (R8, R10): words and fields of 30_encoding.md and 49_compressed.md -/

/-- `c.addi16sp -64` is `addi x2, x2, -64`; `c.lw x8, 4(x9)` is `lw x8, 4(x9)`; `c.beqz x8, -2` is `beq x8, x0, -2`. -/
theorem test_record_of_compressed :
    (Instr.cAddi16sp 0x3C0#10).decodedOp = { op := "ADDI", len := 2, rd := 2#5, rs1 := 2#5, imm := -64#64 } ∧
    (Instr.cLw 8#5 9#5 4#7).decodedOp = { op := "LW", len := 2, rd := 8#5, rs1 := 9#5, imm := 4#64 } ∧
    (Instr.cBeqz 8#5 0x1FE#9).decodedOp = { op := "BEQ", len := 2, rs1 := 8#5, imm := -2#64 } := by decide

/-- An upper immediate is scaled, a CSR has its number, and unused fields are 0 (R163, R167, R168, R651). -/
theorem test_record_fields :
    (Instr.lui 5#5 0x80000#20).decodedOp = { op := "LUI", len := 4, rd := 5#5, imm := 0xFFFFFFFF80000000#64 } ∧
    (Instr.csrrwi 1#5 .frm 4#5).decodedOp = { op := "CSRRWI", len := 4, rd := 1#5, csr := 2#12, imm := 4#64 } ∧
    (Instr.fence 8#4 3#4 1#4 6#5 7#5).decodedOp = { op := "FENCE", len := 4, fm := 8#4, pred := 3#4, succ := 1#4 } ∧
    (Instr.fenceI 1#12 6#5 7#5).decodedOp = { op := "FENCE.I", len := 4 } ∧
    (Instr.fmaddD 1#5 2#5 3#5 4#5 .dyn).decodedOp =
      { op := "FMADD.D", len := 4, rd := 1#5, rs1 := 2#5, rs2 := 3#5, rs3 := 4#5, rm := 7#3 } ∧
    (Instr.scW 1#5 2#5 3#5 false true).decodedOp =
      { op := "SC.W", len := 4, rd := 1#5, rs1 := 2#5, rs2 := 3#5, rl := true } := by decide

/-- An exit discards the registers and keeps memory and the exit value (R852, R853). -/
theorem test_exit_discards_registers :
    let t := hostReturn .exit (poke ((bench.wx 10#5 7#64).withFcsr 0xFF#8) 0x2000#64 4 5#64)
    t.rx 10#5 = 0#64 ∧ t.fcsr = 0#8 ∧ memRead t.mem 0x2000#64 4 = 5#64 ∧ t.status = .ended 7#64 := by decide

/-- The host's writes of a call are events of the hart at its ECALL, instruction 3, one for each byte (R120). -/
theorem test_host_writes_are_events :
    (replyEvents 3 (.resume 2#64 [(0x2000#64, 1#8), (0x2001#64, 2#8), (0x2000#64, 3#8)] none) bench).map
      (fun e => (e.agent, e.pos, e.addr, e.writeValue, e.byHost)) =
    [(.hart 0, ⟨3, 2⟩, 0x2001#64, some 2#64, true), (.hart 0, ⟨3, 2⟩, 0x2000#64, some 3#64, true)] := by decide

/-! ## Consistent executions (R128, R613) -/

/-- A two-byte event, the n-th of its agent. -/
def event (agent : Agent) (n : Nat) (kind : EventKind) (a : Word) (reads writes : Option Word) (order : Order) : MemEvent where
  agent := agent
  pos := ⟨n, 2⟩
  kind := kind
  addr := a
  bytes := if kind = .fence then 0 else 2
  readValue := reads
  writeValue := writes
  order := order
  continues := kind == .rmw
  reserves := false
  byHost := agent == .host

/-- Program P4 in one order: hart 0 writes data and swaps a released flag in, hart 1 acquires the flag and reads the data. -/
def messagePassing : List MemEvent :=
  [event .host 0 .write 0x100#64 none (some 0#64) .plain, event .host 1 .write 0x200#64 none (some 0#64) .plain,
    event (.hart 0) 0 .write 0x100#64 none (some 42#64) .plain,
    event (.hart 0) 1 .rmw 0x200#64 (some 0#64) (some 1#64) .release,
    event (.hart 1) 0 .read 0x200#64 (some 1#64) none .acquire, event (.hart 1) 1 .read 0x100#64 (some 42#64) none .plain]

/-- Store buffering in one order: each hart writes its word, fences and reads the other's; hart 1 reads hart 0's write. -/
def storeBuffering : List MemEvent :=
  [event .host 0 .write 0x100#64 none (some 0#64) .plain, event .host 1 .write 0x200#64 none (some 0#64) .plain,
    event (.hart 0) 0 .write 0x100#64 none (some 1#64) .plain, event (.hart 0) 1 .fence 0#64 none none .acqRel,
    event (.hart 0) 2 .read 0x200#64 (some 0#64) none .plain, event (.hart 1) 0 .write 0x200#64 none (some 1#64) .plain,
    event (.hart 1) 1 .fence 0#64 none none .acqRel, event (.hart 1) 2 .read 0x100#64 (some 1#64) none .plain]

theorem witness_LitmusOutcomes_message_passing :
    let X := Execution.ofSequence messagePassing
    X.Consistent ∧ X.Writes 2 0x100#64 ∧ X.po 2 3 ∧
    (∃ ev, X.Is 3 ev ∧ ev.order.releases = true ∧ ev.kind ≠ .fence) ∧
    (∃ ev, X.Is 4 ev ∧ ev.order.acquires = true ∧ ev.kind ≠ .fence) ∧
    X.ReadsFromSeq 3 4 ∧ X.po 4 5 ∧ X.Reads 5 0x100#64 :=
  ⟨Execution.consistent_ofSequence (by decide), ⟨_, rfl, by decide, .inl rfl⟩, ⟨_, _, 0, rfl, rfl, rfl, rfl, by decide⟩,
    ⟨_, rfl, rfl, by decide⟩, ⟨_, rfl, rfl, by decide⟩,
    ⟨0x200#64, ⟨_, rfl, by decide, .inr rfl⟩, ⟨_, rfl, by decide, .inl rfl⟩,
      (show (Execution.ofSequence messagePassing).rf 4 0x200#64 = 3 by decide) ▸ .head⟩,
    ⟨_, _, 1, rfl, rfl, rfl, rfl, by decide⟩, ⟨_, rfl, by decide, .inl rfl⟩⟩

/-- Message passing with fences: plain accesses to the flag, with a FENCE before the write and one after the read. -/
def fencedPassing : List MemEvent :=
  [event .host 0 .write 0x100#64 none (some 0#64) .plain, event .host 1 .write 0x200#64 none (some 0#64) .plain,
    event (.hart 0) 0 .write 0x100#64 none (some 42#64) .plain, event (.hart 0) 1 .fence 0#64 none none .acqRel,
    event (.hart 0) 2 .write 0x200#64 none (some 1#64) .plain, event (.hart 1) 0 .read 0x200#64 (some 1#64) none .plain,
    event (.hart 1) 1 .fence 0#64 none none .acqRel, event (.hart 1) 2 .read 0x100#64 (some 42#64) none .plain]

theorem witness_LitmusOutcomes_fenced_passing :
    let X := Execution.ofSequence fencedPassing
    X.Consistent ∧ X.Writes 2 0x100#64 ∧ X.po 2 3 ∧ (X.IsFence 3 ∧ X.po 3 4) ∧ X.ReadsFromSeq 4 5 ∧
    (X.IsFence 6 ∧ X.po 5 6) ∧ X.po 6 7 ∧ X.Reads 7 0x100#64 :=
  ⟨Execution.consistent_ofSequence (by decide), ⟨_, rfl, by decide, .inl rfl⟩, ⟨_, _, 0, rfl, rfl, rfl, rfl, by decide⟩,
    ⟨⟨_, rfl, rfl⟩, ⟨_, _, 0, rfl, rfl, rfl, rfl, by decide⟩⟩,
    ⟨0x200#64, ⟨_, rfl, by decide, .inl rfl⟩, ⟨_, rfl, by decide, .inl rfl⟩,
      (show (Execution.ofSequence fencedPassing).rf 5 0x200#64 = 4 by decide) ▸ .head⟩,
    ⟨⟨_, rfl, rfl⟩, ⟨_, _, 1, rfl, rfl, rfl, rfl, by decide⟩⟩, ⟨_, _, 1, rfl, rfl, rfl, rfl, by decide⟩,
    ⟨_, rfl, by decide, .inl rfl⟩⟩

theorem witness_LitmusOutcomes_store_buffering :
    let X := Execution.ofSequence storeBuffering
    X.Consistent ∧ X.Writes 2 0x100#64 ∧ X.po 2 3 ∧ X.IsFence 3 ∧ X.po 3 4 ∧ X.Reads 4 0x200#64 ∧
    X.Writes 5 0x200#64 ∧ X.po 5 6 ∧ X.IsFence 6 ∧ X.po 6 7 ∧ X.Reads 7 0x100#64 ∧ (3 : Nat) ≠ 6 :=
  ⟨Execution.consistent_ofSequence (by decide), ⟨_, rfl, by decide, .inl rfl⟩, ⟨_, _, 0, rfl, rfl, rfl, rfl, by decide⟩,
    ⟨_, rfl, rfl⟩, ⟨_, _, 0, rfl, rfl, rfl, rfl, by decide⟩, ⟨_, rfl, by decide, .inl rfl⟩,
    ⟨_, rfl, by decide, .inl rfl⟩, ⟨_, _, 1, rfl, rfl, rfl, rfl, by decide⟩, ⟨_, rfl, rfl⟩,
    ⟨_, _, 1, rfl, rfl, rfl, rfl, by decide⟩, ⟨_, rfl, by decide, .inl rfl⟩, by decide⟩

/-- Hart 1's read of the data is indivisible, and all its bytes come from one write of its own footprint. -/
theorem witness_LitmusOutcomes_whole_read :
    let X := Execution.ofSequence messagePassing
    ∃ rv, X.Is 5 rv ∧ rv.Indivisible ∧ rv.kind = .read ∧
      ∀ a ∈ accessBytes rv.addr rv.bytes, ∃ wv, X.Is (X.rf 5 a) wv ∧ wv.addr = rv.addr ∧ wv.bytes = rv.bytes := by
  refine ⟨_, rfl, by unfold MemEvent.Indivisible; decide, rfl, fun a ha => ?_⟩
  rw [show accessBytes _ _ = [0x100#64, 0x101#64] by decide] at ha
  have h : (Execution.ofSequence messagePassing).rf 5 0x100#64 = 2 ∧
      (Execution.ofSequence messagePassing).rf 5 0x101#64 = 2 := by decide
  rcases List.mem_cons.mp ha with rfl | ha
  · exact ⟨messagePassing[2], by rw [h.1]; rfl, rfl, rfl⟩
  · exact ⟨messagePassing[2], by rw [List.mem_singleton.mp ha, h.2]; rfl, rfl, rfl⟩

/-- What a step leaves. -/
def after (s : State) : State :=
  match step s with
  | .next t => t
  | .fault _ => s
  | .refused _ => s

/-- `lr.w x1, (x2)` and `sc.w x1, x3, (x2)` in reserve mode, at 0x1000. -/
def lrSc : State := poke (placed 32 0x100120AF (reserving (bench.wx 2#5 0x2000#64) none)) 0x1004#64 4 0x183120AF#64

/-- The host's own writes before it launches that hart: its code and its data. -/
def lrScMemory : List MemEvent :=
  [(0x1000#64, 0x100120AF#64), (0x1004#64, 0x183120AF#64), (0x2000#64, 0#64)].map fun c =>
    { event .host 0 .write c.1 none (some c.2) .plain with bytes := 4 }

/-- The hart's two steps with the host's writes are an execution that these steps make and the memory model admits, and the
SC succeeds (R611 to R613). -/
theorem test_admitted_run :
    (Execution.ofSequence (lrScMemory ++ [[lrSc, after lrSc]].flatMap runEvents)).Admitted [[lrSc, after lrSc]] ∧
    (after (after lrSc)).rx 1#5 = 0#64 ∧ (after (after lrSc)).resv = none := by
  have hnum : numbered 0 [lrSc, after lrSc] = [(0, lrSc), (1, after lrSc)] := by decide
  have hone : ∀ {h r}, [[lrSc, after lrSc]][h]? = some r → h = 0 ∧ r = [lrSc, after lrSc] := by
    rintro (_ | h) r hr
    · exact ⟨rfl, (Option.some.inj hr).symm⟩
    · simp at hr
  refine ⟨⟨⟨?_, ⟨lrScMemory, by decide, .refl _⟩, ?_, ?_⟩, Execution.consistent_ofSequence (by decide +kernel)⟩, by decide,
    by decide⟩
  · intro h r hr
    obtain ⟨rfl, rfl⟩ := hone hr
    exact ⟨⟨rfl, ⟨_, rfl, rfl⟩, rfl⟩, by unfold BeginsLaunched; decide⟩
  · intro h r n s hr hs hst
    obtain ⟨rfl, rfl⟩ := hone hr
    rw [hnum] at hs
    rcases List.mem_cons.mp hs with h | h
    · obtain ⟨rfl, rfl⟩ := Prod.mk.inj h
      exact absurd hst (by decide)
    · obtain ⟨rfl, rfl⟩ := Prod.mk.inj (List.mem_singleton.mp h)
      exact absurd hst (by decide)
  · intro h r n s i a k v aq rl hr hs _ _ _ _ _ ho
    obtain ⟨rfl, rfl⟩ := hone hr
    rw [hnum] at hs
    rcases List.mem_cons.mp hs with h | h
    · obtain ⟨rfl, rfl⟩ := Prod.mk.inj h
      exact absurd ho (by decide)
    · obtain ⟨rfl, rfl⟩ := Prod.mk.inj (List.mem_singleton.mp h)
      exact absurd ho (by decide)

/-- Another hart that runs `sw x3, 0(x2)` at 0x1008, with 5 in x3. -/
def storer : State :=
  { placed 32 0x00312023 ((reserving ((bench.wx 2#5 0x2000#64).wx 3#5 5#64) none).withPc 0x1008#64) with hart := 1 }

/-- The hart of `lrSc` at its SC, after the other hart's store. -/
def overtaken : State := { poke (after lrSc) 0x2000#64 4 5#64 with otherHartWrote := true }

/-- The host's writes before the harts run: the LR, the SC, the word they name and the other hart's store. -/
def overtakingMemory : List MemEvent :=
  lrScMemory ++ [{ event .host 3 .write 0x1008#64 none (some 0x00312023#64) .plain with bytes := 4 }]

/-- The events in the order they happen: the host's, the LR's step, the other hart's store, and the SC's step. -/
def overtaking : List MemEvent :=
  overtakingMemory ++ stepEvents 0 lrSc ++ stepEvents 0 storer ++ stepEvents 1 overtaken

/-- The write that overtakes an SC is not one of those that come after it wherever it is put (R613). -/
theorem overtaking_write_comes_first :
    ¬ (Execution.ofSequence overtaking).ComesAfterSc 0 1 (accessBytes 0x2000#64 4) 0x2000#64 9 := by
  intro h
  obtain ⟨f, fv, hf, ha, hn, hlt⟩ := Execution.comesAfterSc_ge (evs := overtaking) (by decide +kernel) h
  have hall : ∀ k < 10, (overtaking[k]?).all fun ev => !(ev.agent == .hart 0 && decide (Position.before ⟨1, 2⟩ ev.pos)) := by
    decide
  have := hall f (by omega)
  rw [show overtaking[f]? = some fv from hf] at this
  simp only [Option.all_some, ha, beq_self_eq_true, Bool.true_and, Bool.not_eq_true', decide_eq_false_iff_not] at this
  exact this hn

/-- The two harts' steps are an execution the memory model admits, and in it the SC fails and writes nothing (R613, R614). -/
theorem test_admitted_failed_sc :
    (Execution.ofSequence overtaking).Admitted [[lrSc, overtaken], [storer]] ∧ (after overtaken).rx 1#5 = 1#64 ∧
    memRead (after overtaken).mem 0x2000#64 4 = 5#64 := by
  have hnum : numbered 0 [lrSc, overtaken] = [(0, lrSc), (1, overtaken)] := by decide
  have hview : ∀ {h r n s}, [[lrSc, overtaken], [storer]][h]? = some r → (n, s) ∈ numbered 0 r →
      (s = lrSc ∨ s = storer) ∨ (h = 0 ∧ n = 1 ∧ s = overtaken) := by
    rintro (_ | _ | h) r n s hr hs
    · obtain rfl := Option.some.inj hr
      rw [hnum] at hs
      rcases List.mem_cons.mp hs with h | h
      · exact .inl (.inl (Prod.mk.inj h).2)
      · exact .inr ⟨rfl, Prod.mk.inj (List.mem_singleton.mp h)⟩
    · obtain rfl := Option.some.inj hr
      exact .inl (.inr (Prod.mk.inj (List.mem_singleton.mp hs)).2)
    · simp at hr
  refine ⟨⟨⟨?_, ⟨overtakingMemory, by decide, ?_⟩, ?_, ?_⟩, Execution.consistent_ofSequence (by decide +kernel)⟩,
    by decide, by decide⟩
  · rintro (_ | _ | h) r hr
    · obtain rfl := Option.some.inj hr
      exact ⟨⟨rfl, ⟨_, rfl, rfl⟩, rfl⟩, by unfold BeginsLaunched; decide⟩
    · obtain rfl := Option.some.inj hr
      exact ⟨rfl, by unfold BeginsLaunched; decide⟩
    · simp at hr
  · rw [show [[lrSc, overtaken], [storer]].flatMap runEvents =
      stepEvents 0 lrSc ++ (stepEvents 1 overtaken ++ stepEvents 0 storer) by decide]
    simp only [Execution.ofSequence, overtaking, List.append_assoc]
    exact .append_left _ (.append_left _ List.perm_append_comm)
  · intro h r n s hr hs hst
    rcases hview hr hs with (rfl | rfl) | ⟨_, _, rfl⟩ <;> exact absurd hst (by decide)
  · intro h r n s i a k v aq rl hr hs _ hf hd _ hv ho
    rcases hview hr hs with (rfl | rfl) | ⟨rfl, rfl, rfl⟩
    · exact absurd ho (by decide)
    · exact absurd ho (by decide)
    · obtain ⟨rfl, rfl⟩ : (0x2000#64 : Word) = a ∧ 4 = k := by
        have := (show overtaken.resv = some ⟨0x2000#64, 4⟩ by decide).symm.trans hv
        simpa using this
      refine ⟨6, overtaking[6], rfl, rfl, rfl, by decide, ?_, 0x2000#64, by decide, 9, overtaking[9], 1, rfl, rfl,
        by decide, ⟨by decide, by decide, by decide⟩, overtaking_write_comes_first⟩
      intro m mv hm _ hres _
      have hall : ∀ ev ∈ overtaking, ev.reserves = true → ¬ overtaking[6].pos.before ev.pos := by decide
      exact hall mv (List.mem_of_getElem? hm) hres

end Sys2Proof.Tests
end

section
/-! Scope (00_scope.md). What an instruction can do to the hart, said once for all 193: it stops with an event, or it completes
and leaves the host's side of the state as it was. -/

namespace Sys2Proof.Machine

open Sys2Proof.Spec

/-! ## The ends of an instruction -/

/-- An answer that is either a stop event taken in `s`, or a next state that keeps what the host holds of `s`, its status
included. -/
def StopsOrCompletes (s : State) (r : Result) : Prop := (∃ e, r = raise e s) ∨ ∃ t, r = .next t ∧ SameHost s t

theorem sameHost_refl (s : State) : SameHost s s := ⟨⟨rfl, rfl, rfl⟩, rfl⟩

theorem sameHost_perform (q : LsuReq) (s : State) : SameHost s (perform q s).2 :=
  ⟨⟨perform_params q s, perform_hart q s, perform_hostCalls q s⟩, perform_status q s⟩

variable {s t : State}

theorem raise_stopsOrCompletes (e : StopEvent) (s : State) : StopsOrCompletes s (raise e s) := .inl ⟨e, rfl⟩

theorem next_stopsOrCompletes (h : SameHost s t) : StopsOrCompletes s (.next t) := .inr ⟨t, rfl, h⟩

theorem withMode_stopsOrCompletes {rm : Rm} {k : RoundingMode → Result} (h : ∀ m, StopsOrCompletes s (k m)) :
    StopsOrCompletes s (withMode rm s k) := by
  obtain ⟨m, -, hk⟩ | ⟨-, hr⟩ := withMode_cases rm s k
  · exact hk ▸ h m
  · exact hr ▸ raise_stopsOrCompletes _ s

theorem access_stopsOrCompletes {q : LsuReq} {k : Word → State → Result}
    (h : ∀ v t, SameHost s t → StopsOrCompletes s (k v t)) : StopsOrCompletes s (access q s k) := by
  obtain ⟨-, hk⟩ | ⟨e, -, hr⟩ := access_cases q s k
  · exact hk ▸ h _ _ (sameHost_perform q s)
  · exact hr ▸ raise_stopsOrCompletes e s

theorem loadX_stopsOrCompletes (len : Nat) (rd : XReg) (a : Word) (n : Nat) (ext : Word → Word) (s : State) :
    StopsOrCompletes s (loadX len rd a n ext s) := access_stopsOrCompletes fun _ _ h => next_stopsOrCompletes h

theorem loadF_stopsOrCompletes (len : Nat) (frd : FReg) (a : Word) (n : Nat) (box : Word → Word) (s : State) :
    StopsOrCompletes s (loadF len frd a n box s) := access_stopsOrCompletes fun _ _ h => next_stopsOrCompletes h

theorem storeBytes_stopsOrCompletes (len : Nat) (a : Word) (n : Nat) (v : Word) (s : State) :
    StopsOrCompletes s (storeBytes len a n v s) := access_stopsOrCompletes fun _ _ h => next_stopsOrCompletes h

theorem loadReserved_stopsOrCompletes (n : Nat) (rd rs1 : XReg) (aq rl : Bool) (s : State) :
    StopsOrCompletes s (loadReserved n rd rs1 aq rl s) := access_stopsOrCompletes fun _ _ h => next_stopsOrCompletes h

theorem storeConditional_stopsOrCompletes (n : Nat) (rd rs1 rs2 : XReg) (aq rl : Bool) (s : State) :
    StopsOrCompletes s (storeConditional n rd rs1 rs2 aq rl s) :=
  access_stopsOrCompletes fun _ _ h => next_stopsOrCompletes h

theorem readModifyWrite_stopsOrCompletes (kind : AmoKind) (n : Nat) (rd rs1 rs2 : XReg) (aq rl : Bool) (s : State) :
    StopsOrCompletes s (readModifyWrite kind n rd rs1 rs2 aq rl s) :=
  access_stopsOrCompletes fun _ _ h => next_stopsOrCompletes h

theorem csrAccess_stopsOrCompletes (rd : XReg) (csr : Csr) (new : Option Word) (s : State) :
    StopsOrCompletes s (csrAccess rd csr new s) := by
  cases new with
  | none => exact next_stopsOrCompletes (sameHost_refl s)
  | some v => exact next_stopsOrCompletes (sameHost_refl s)

/-- Every instruction stops with an event, or completes and leaves the host's side of the state and the status alone. -/
theorem exec_stopsOrCompletes (i : Instr) (s : State) : StopsOrCompletes s (exec i s) := by
  unfold exec
  cases i with
  | ecall | ebreak | cEbreak => exact raise_stopsOrCompletes _ s
  | lb | lh | lw | ld | lbu | lhu | lwu | cLw | cLd | cLwsp | cLdsp => exact loadX_stopsOrCompletes _ _ _ _ _ s
  | flw | fld | cFld | cFldsp => exact loadF_stopsOrCompletes _ _ _ _ _ s
  | sb | sh | sw | sd | fsw | fsd | cSw | cSd | cSwsp | cSdsp | cFsd | cFsdsp =>
    exact storeBytes_stopsOrCompletes _ _ _ _ s
  | lrW | lrD => exact loadReserved_stopsOrCompletes _ _ _ _ _ s
  | scW | scD => exact storeConditional_stopsOrCompletes _ _ _ _ _ _ s
  | amoswapW | amoaddW | amoxorW | amoandW | amoorW | amominW | amomaxW | amominuW | amomaxuW
  | amoswapD | amoaddD | amoxorD | amoandD | amoorD | amominD | amomaxD | amominuD | amomaxuD =>
    exact readModifyWrite_stopsOrCompletes _ _ _ _ _ _ _ s
  | csrrw | csrrs | csrrc | csrrwi | csrrsi | csrrci => exact csrAccess_stopsOrCompletes _ _ _ s
  | fmaddS | fmsubS | fnmsubS | fnmaddS | faddS | fsubS | fmulS | fdivS | fsqrtS
  | fcvtWS | fcvtWUS | fcvtLS | fcvtLUS | fcvtSW | fcvtSWU | fcvtSL | fcvtSLU | fcvtSD
  | fmaddD | fmsubD | fnmsubD | fnmaddD | faddD | fsubD | fmulD | fdivD | fsqrtD
  | fcvtWD | fcvtWUD | fcvtLD | fcvtLUD | fcvtDW | fcvtDWU | fcvtDL | fcvtDLU | fcvtDS =>
    exact withMode_stopsOrCompletes fun _ => next_stopsOrCompletes (sameHost_refl s)
  -- every other instruction writes registers and the pc
  | _ => exact next_stopsOrCompletes (sameHost_refl s)

/-- Settles O8, by the two ways an instruction can end. -/
theorem execAlwaysNext : Obligations.ExecAlwaysNext := by
  intro i s
  obtain ⟨e, h⟩ | ⟨t, h, -⟩ := exec_stopsOrCompletes i s
  · exact ⟨_, h⟩
  · exact ⟨t, h⟩

/-! ## The step -/

theorem step_of_instr {i : Instr} (hs : s.status = .running) (hf : fetchInstr s = .instr i) : step s = exec i s := by
  simp only [step, hs, hf]

theorem step_of_stop {e : StopEvent} (hs : s.status = .running) (hf : fetchInstr s = .stop e) :
    step s = raise e s := by
  simp only [step, hs, hf]

theorem step_stopsOrCompletes (hs : s.status = .running) : StopsOrCompletes s (step s) := by
  cases hf : fetchInstr s with
  | instr i => exact step_of_instr hs hf ▸ exec_stopsOrCompletes i s
  | stop e => exact step_of_stop hs hf ▸ raise_stopsOrCompletes e s

/-- However it ends, an instruction keeps the host's parameters, the hart's name and the count of calls. -/
theorem StopsOrCompletes.sameParams (h : StopsOrCompletes s (.next t)) : SameParams s t := by
  obtain ⟨e, he⟩ | ⟨u, hu, hhost⟩ := h
  · obtain rfl := Host.Outcome.next.inj he
    exact ⟨rfl, rfl, rfl⟩
  · obtain rfl := Host.Outcome.next.inj hu
    exact hhost.1

/-- Settles O16: a running hart's step ends in one of the two ways, and both keep the parameters. -/
theorem runningStepKeepsParams : Obligations.RunningStepKeepsParams := by
  intro s t hs ht
  exact (ht ▸ step_stopsOrCompletes hs).sameParams

end Sys2Proof.Machine
end

section
/-! Compressed instructions (49_compressed.md): each does what its expansion does, with len = 2 (R700). Their immediates are
those of the expansions, and each shared operation ends alike under both lengths. -/

namespace Sys2Proof.Machine

open Sys2Proof.Spec

variable {s t : State}

/-! ## Immediates -/

/-- A zero-extended compressed immediate is the sign-extended one of the expansion, whose top bit it leaves 0. -/
theorem immSigned_setWidth {n : Nat} (hn : n < 12) (u : BitVec n) : immSigned (u.setWidth 12) = offsetUnsigned u := by
  have hmsb : (u.setWidth 12).msb = false := by
    rw [BitVec.msb_setWidth, BitVec.getLsbD_of_ge u _ (by omega), Bool.and_false]
  rw [immSigned, offsetUnsigned, BitVec.signExtend_eq_setWidth_of_msb_false hmsb]
  apply BitVec.eq_of_toNat_eq
  rw [BitVec.toNat_setWidth_of_le (by decide), BitVec.toNat_setWidth_of_le hn.le, BitVec.toNat_setWidth_of_le (by omega)]

theorem immSigned_signExtend {n : Nat} (hn : n ≤ 12) (v : BitVec n) :
    immSigned (v.signExtend 12) = offsetSigned v := by
  apply BitVec.eq_of_toInt_eq
  rw [immSigned, offsetSigned, BitVec.toInt_signExtend_of_le (by omega), BitVec.toInt_signExtend_of_le hn,
    BitVec.toInt_signExtend_of_le (by omega)]

/-- C.LUI's 18-bit immediate is LUI's 20-bit one with its 12 low zeros (R175). -/
theorem immUpper_signExtend (v : BitVec 18) (h : lowZero v 12 = true) :
    immUpper ((v.extractLsb' 12 6).signExtend 20) = offsetSigned v := by
  have hv : v.extractLsb' 12 6 ++ 0#12 = v := by
    rw [← beq_iff_eq.mp h]
    exact BitVec.extractLsb'_append_extractLsb' (w := 6) (len := 12) (x := v)
  conv_rhs => rw [← hv]
  apply BitVec.eq_of_toInt_eq
  rw [immUpper, offsetSigned, BitVec.toInt_signExtend_of_le (by decide), BitVec.toInt_append_zero,
    BitVec.toInt_signExtend_of_le (by decide), BitVec.toInt_signExtend_of_le (by decide), BitVec.toInt_append_zero]

theorem addr_setWidth {n : Nat} (hn : n < 12) (s : State) (r : XReg) (u : BitVec n) :
    s.addr r (u.setWidth 12) = s.addrC r u := by
  rw [State.addr, State.addrC, immSigned_setWidth hn]

/-! ## The two lengths of an operation -/

/-- The answers of a 32-bit instruction and of a compressed one agree: both fall through to the same state but for the pc, or
both stop alike. -/
def SameButPc (s : State) (r4 r2 : Result) : Prop :=
  ∃ t, r4 = .next t ∧ ((t.status = s.status ∧ t.pc = s.pc + 4#64 ∧ r2 = .next (t.withPc (s.pc + 2#64))) ∨
    ((∃ e, StoppedAs s t e) ∧ r2 = .next t))

theorem raise_stoppedAs (e : StopEvent) (s : State) : ∃ t, raise e s = .next t ∧ StoppedAs s t e :=
  ⟨_, rfl, rfl, rfl, fun _ => rfl, fun _ => rfl, rfl, fun _ => rfl, ⟨rfl, rfl⟩, rfl, rfl, rfl⟩

theorem raise_sameButPc (e : StopEvent) (s : State) : SameButPc s (raise e s) (raise e s) := by
  obtain ⟨t, ht, hstop⟩ := raise_stoppedAs e s
  exact ⟨t, ht, .inr ⟨⟨e, hstop⟩, ht⟩⟩

theorem retire_sameButPc (hs : t.status = s.status) (hpc : t.pc = s.pc) : SameButPc s (retire 4 t) (retire 2 t) :=
  ⟨_, rfl, .inl ⟨hs, congrArg (· + 4#64) hpc, hpc ▸ rfl⟩⟩

theorem access_of_stopped {q : LsuReq} {e : StopEvent} (h : admission q s = some e) (k : Word → State → Result) :
    access q s k = raise e s := by
  simp only [access, h]

theorem access_sameButPc {q : LsuReq} {k4 k2 : Word → State → Result}
    (h : ∀ v t, t.status = s.status → t.pc = s.pc → SameButPc s (k4 v t) (k2 v t)) :
    SameButPc s (access q s k4) (access q s k2) := by
  cases ha : admission q s with
  | none =>
    rw [access_of_admitted ha, access_of_admitted ha]
    exact h _ _ (perform_status q s) (perform_pc q s)
  | some e =>
    rw [access_of_stopped ha, access_of_stopped ha]
    exact raise_sameButPc e s

theorem retireX_sameButPc {v4 v2 : Word} (rd : XReg) (h : v4 = v2) :
    SameButPc s (retireX 4 rd v4 s) (retireX 2 rd v2 s) := h ▸ retire_sameButPc rfl rfl

theorem aluImm_sameButPc {v4 v2 : Word} (op : Word → Word → Word) (rd rs1 : XReg) (h : v4 = v2) :
    SameButPc s (aluImm 4 op rd rs1 v4 s) (aluImm 2 op rd rs1 v2 s) := h ▸ retire_sameButPc rfl rfl

theorem aluReg_sameButPc (op : Word → Word → Word) (rd rs1 rs2 : XReg) :
    SameButPc s (aluReg 4 op rd rs1 rs2 s) (aluReg 2 op rd rs1 rs2 s) := retire_sameButPc rfl rfl

theorem loadX_sameButPc {a4 a2 : Word} (rd : XReg) (n : Nat) (ext : Word → Word) (h : a4 = a2) :
    SameButPc s (loadX 4 rd a4 n ext s) (loadX 2 rd a2 n ext s) :=
  h ▸ access_sameButPc fun _ _ hs hpc => retire_sameButPc hs hpc

theorem loadF_sameButPc {a4 a2 : Word} (frd : FReg) (n : Nat) (box : Word → Word) (h : a4 = a2) :
    SameButPc s (loadF 4 frd a4 n box s) (loadF 2 frd a2 n box s) :=
  h ▸ access_sameButPc fun _ _ hs hpc => retire_sameButPc hs hpc

theorem storeBytes_sameButPc {a4 a2 : Word} (n : Nat) (v : Word) (h : a4 = a2) :
    SameButPc s (storeBytes 4 a4 n v s) (storeBytes 2 a2 n v s) :=
  h ▸ access_sameButPc fun _ _ hs hpc => retire_sameButPc hs hpc

/-! ## Expansions -/

/-- A compressed instruction, but for the five control transfers, and its expansion fall through or stop alike (R700). -/
theorem exec_expand_sameButPc (i : Instr) (s : State) (hwf : i.wf = true) (hlen : i.len = 2)
    (hj : ∀ j r b, i ≠ .cJ j ∧ i ≠ .cJr r ∧ i ≠ .cJalr r ∧ i ≠ .cBeqz r b ∧ i ≠ .cBnez r b) :
    SameButPc s (exec (expand i) s) (exec i s) := by
  unfold exec expand
  cases i with
  | cAddi4spn _ u => exact aluImm_sameButPc _ _ _ (immSigned_setWidth (by decide) u)
  | cNop v | cAddi _ v | cAddiw _ v | cLi _ v | cAndi _ v | cAddi16sp v =>
    exact aluImm_sameButPc _ _ _ (immSigned_signExtend (by decide) v)
  | cSrli | cSrai | cSlli => exact aluImm_sameButPc _ _ _ rfl
  | cLui _ v =>
    obtain ⟨⟨-, hv⟩, -⟩ : (_ ∧ lowZero v 12 = true) ∧ _ := by simpa only [Instr.wf, Bool.and_eq_true] using hwf
    exact retireX_sameButPc _ (immUpper_signExtend v hv)
  | cSub | cXor | cOr | cAnd | cSubw | cAddw | cMv | cAdd => exact aluReg_sameButPc _ _ _ _
  | cLw _ r u | cLd _ r u => exact loadX_sameButPc _ _ _ (addr_setWidth (by decide) s r u)
  | cLwsp _ u | cLdsp _ u => exact loadX_sameButPc _ _ _ (addr_setWidth (by decide) s 2#5 u)
  | cFld _ r u => exact loadF_sameButPc _ _ _ (addr_setWidth (by decide) s r u)
  | cFldsp _ u => exact loadF_sameButPc _ _ _ (addr_setWidth (by decide) s 2#5 u)
  | cSw _ r u | cSd _ r u | cFsd _ r u => exact storeBytes_sameButPc _ _ (addr_setWidth (by decide) s r u)
  | cSwsp _ u | cSdsp _ u | cFsdsp _ u => exact storeBytes_sameButPc _ _ (addr_setWidth (by decide) s 2#5 u)
  | cEbreak => exact raise_sameButPc _ s
  | cJ | cJr | cJalr | cBeqz | cBnez => simp at hj
  | _ => exact absurd (show 4 = 2 from hlen) (by decide)

/-- An expansion is a 32-bit instruction (R10). -/
theorem len_expand (i : Instr) : (expand i).len = 4 := by
  cases i <;> rfl

theorem expand_expand (i : Instr) : expand (expand i) = expand i := by
  cases i <;> rfl

/-- The decoder's record of an expansion has all fields of the instruction's own (R8, R10). -/
theorem decodedOp_eq_expand (i : Instr) : i.decodedOp = { (expand i).decodedOp with len := i.len } := by
  simp only [Instr.decodedOp, expand_expand]

/-- Settles O60: the record by the expansion being its own expansion, the effect operation by operation. -/
theorem compressedIsExpansion : Obligations.CompressedIsExpansion := by
  intro i s hwf hlen
  refine ⟨hlen ▸ decodedOp_eq_expand i, len_expand _, fun hj => ?_⟩
  obtain ⟨t, ht, h⟩ := exec_expand_sameButPc i s hwf hlen hj
  exact ⟨t, ht, len_expand i, h⟩

end Sys2Proof.Machine
end

section
/-! Fetch and decode (30_encoding.md, 60_exceptions.md R802): a step fetches the instruction that the bytes at pc decode to. -/

namespace Sys2Proof

/-! ## The length of an instruction by its decoder (R150) -/

/-- Every instruction an answer of a decoder holds is 32 bits wide. -/
def OnlyLong (o : Option Instr) : Prop := ∀ i ∈ o, i.len = 4

@[simp] theorem onlyLong_none : OnlyLong none := nofun

@[simp] theorem onlyLong_some {i : Instr} : OnlyLong (some i) ↔ i.len = 4 := by simp [OnlyLong]

@[simp] theorem onlyLong_map {α : Type} {f : α → Instr} {o : Option α} :
    OnlyLong (o.map f) ↔ ∀ a ∈ o, (f a).len = 4 := by simp [OnlyLong]

/-- Every row of the 32-bit table is 4 bytes long. -/
theorem onlyLong_decode32 (w : BitVec 32) : OnlyLong (decode32 w) := by
  unfold decode32 decodeLoad decodeLoadFp decodeMiscMem decodeOpImm decodeOpImm32 decodeStore decodeStoreFp decodeAmo
    decodeOp decodeOp32 decodeMadd decodeMsub decodeNmsub decodeNmadd decodeOpFp decodeBranch decodeJalr decodeSystem
  repeat' split
  all_goals simp only [onlyLong_none, onlyLong_some, onlyLong_map] <;> intros <;> rfl

theorem two_le_len (i : Instr) : 2 ≤ i.len := by
  cases i <;> exact Nat.le_of_ble_eq_true rfl

/-! ## Decoding four bytes -/

theorem word_of_parcels (b0 b1 b2 b3 : Byte) : (b3 ++ b2) ++ (b1 ++ b0) = b3 ++ b2 ++ b1 ++ b0 :=
  (BitVec.append_assoc (x₁ := b3 ++ b2)).symm

/-- Four bytes that decode are an instruction of the first parcel, or one of the whole word (R151). -/
theorem decode_cases {b0 b1 b2 b3 : Byte} {i : Instr} {rest : List Byte}
    (h : decode [b0, b1, b2, b3] = .instr i rest) :
    (parcelKind (b1 ++ b0) = .compressed ∧ decode16 (b1 ++ b0) = some i) ∨
    (parcelKind (b1 ++ b0) = .standard ∧ decode32 ((b3 ++ b2) ++ (b1 ++ b0)) = some i) := by
  rw [word_of_parcels]
  unfold decode at h
  cases hk : parcelKind (b1 ++ b0) with
  | compressed =>
    cases hd : decode16 (b1 ++ b0) with
    | none => simp [hk, hd] at h
    | some j =>
      simp only [hk, hd, Decoded.instr.injEq] at h
      exact .inl ⟨rfl, congrArg some h.1⟩
  | standard =>
    cases hd : decode32 (b3 ++ b2 ++ b1 ++ b0) with
    | none => simp [hk, hd] at h
    | some j =>
      simp only [hk, hd, Decoded.instr.injEq] at h
      exact .inr ⟨rfl, congrArg some h.1⟩
  | long => simp [hk] at h

namespace Machine

open Spec

variable {s : State} {i : Instr}

theorem accessBytes_four (a : Word) : accessBytes a 4 = [a, a + 1#64, a + 2#64, a + 2#64 + 1#64] := by
  simp [accessBytes, BitVec.add_assoc]

/-- A part of a mapped access is mapped. -/
theorem mappedAll_part {a : Word} {n : Nat} {k : AccessKind} (h : MappedAll s a n k) (j m : Nat) (hn : j + m ≤ n) :
    MappedAll s (a + BitVec.ofNat 64 j) m k := by
  intro b hb
  obtain ⟨c, hc, rfl⟩ := mem_accessBytes.mp hb
  refine h _ (mem_accessBytes.mpr ⟨j + c, by omega, ?_⟩)
  rw [BitVec.add_assoc, BitVec.ofNat_add]

theorem fetchParcel_of_mapped {a : Word} (h : MappedAll s a 2 .fetch) :
    fetchParcel s a = some (byteAt s.mem (a + 1#64).toNat ++ byteAt s.mem a.toNat) := by
  have hnone : failingBytes s.params [.fetch] a 2 = [] := by
    simpa [failingBytes, missingKind, MappedAll] using h
  simp [fetchParcel, hnone]

theorem accept_of_implemented (w : BitVec 32) (hi : i.mnemonic ∉ s.params.withheld) : accept s w (some i) = .instr i := by
  simp [accept, hi]

theorem fetchInstr_compressed {p0 : BitVec 16} (hpc : s.pc.getLsbD 0 = false) (hp0 : fetchParcel s s.pc = some p0)
    (hk : parcelKind p0 = .compressed) : fetchInstr s = accept s (p0.setWidth 32) (decode16 p0) := by
  simp only [fetchInstr, hpc, hp0, hk, Bool.false_eq_true, if_false]

theorem fetchInstr_standard {p0 p1 : BitVec 16} (hpc : s.pc.getLsbD 0 = false) (hp0 : fetchParcel s s.pc = some p0)
    (hk : parcelKind p0 = .standard) (hp1 : fetchParcel s (s.pc + 2#64) = some p1) :
    fetchInstr s = accept s (p1 ++ p0) (decode32 (p1 ++ p0)) := by
  simp only [fetchInstr, hpc, hp0, hk, hp1, Bool.false_eq_true, if_false]

/-- The front end fetches the instruction that the bytes at an even pc decode to, where its own bytes are mapped for fetch. -/
theorem fetchInstr_of_decode {rest : List Byte} (hpc : s.pc.toNat % 2 = 0)
    (hd : decode ((accessBytes s.pc 4).map fun a => byteAt s.mem a.toNat) = .instr i rest)
    (hm : MappedAll s s.pc i.len .fetch) (hi : i.mnemonic ∉ s.params.withheld) : fetchInstr s = .instr i := by
  have heven : s.pc.getLsbD 0 = false := by simp [BitVec.getLsbD, Nat.testBit_zero, hpc]
  have hp0 := fetchParcel_of_mapped (by simpa using mappedAll_part hm 0 2 (two_le_len i) : MappedAll s s.pc 2 .fetch)
  rw [accessBytes_four] at hd
  obtain ⟨hk, hd⟩ | ⟨hk, hd⟩ := decode_cases hd
  · rw [fetchInstr_compressed heven hp0 hk, hd, accept_of_implemented _ hi]
  · have hlen : i.len = 4 := onlyLong_decode32 _ i hd
    have hp1 := fetchParcel_of_mapped (mappedAll_part hm 2 2 hlen.ge)
    rw [fetchInstr_standard heven hp0 hk hp1, hd, accept_of_implemented _ hi]

/-- Settles O6: the step runs, and the decoder puts out, what the front end fetches. -/
theorem stepRunsDecoded : Obligations.StepRunsDecoded := by
  intro s i rest hs hpc hd hm hi
  have hf := fetchInstr_of_decode hpc hd hm hi
  exact ⟨step_of_instr hs hf, by simp only [decoderOutput, hf]⟩

end Machine

end Sys2Proof
end

section
/-! The decoder gives well-formed instructions (R153 to R182, R215): the low bits of an immediate that no piece of the word
supplies are 0, a 3-bit field names one of x8 to x15, and the reserved operands are refused. -/

namespace Sys2Proof

/-! ## Operands -/

/-- An immediate that ends in `k` zeros has its `k` low bits 0. -/
theorem lowZero_append_zero {n k : Nat} (v : BitVec n) : lowZero (v ++ 0#k) k = true := by
  simp [lowZero, BitVec.extractLsb'_append_eq_of_add_le]

@[simp] theorem lowZero_immB (w : BitVec 32) : lowZero (immB w) 1 = true := lowZero_append_zero _

@[simp] theorem lowZero_immJ (w : BitVec 32) : lowZero (immJ w) 1 = true := lowZero_append_zero _

@[simp] theorem lowZero_immCiw (w : BitVec 16) : lowZero (immCiw w) 2 = true := lowZero_append_zero _

@[simp] theorem lowZero_immClw (w : BitVec 16) : lowZero (immClw w) 2 = true := lowZero_append_zero _

@[simp] theorem lowZero_immCld (w : BitVec 16) : lowZero (immCld w) 3 = true := lowZero_append_zero _

@[simp] theorem lowZero_immCaddi16sp (w : BitVec 16) : lowZero (immCaddi16sp w) 4 = true := lowZero_append_zero _

@[simp] theorem lowZero_immClui (w : BitVec 16) : lowZero (immClui w) 12 = true := lowZero_append_zero _

@[simp] theorem lowZero_immClwsp (w : BitVec 16) : lowZero (immClwsp w) 2 = true := lowZero_append_zero _

@[simp] theorem lowZero_immCldsp (w : BitVec 16) : lowZero (immCldsp w) 3 = true := lowZero_append_zero _

@[simp] theorem lowZero_immCswsp (w : BitVec 16) : lowZero (immCswsp w) 2 = true := lowZero_append_zero _

@[simp] theorem lowZero_immCsdsp (w : BitVec 16) : lowZero (immCsdsp w) 3 = true := lowZero_append_zero _

@[simp] theorem lowZero_immCb (w : BitVec 16) : lowZero (immCb w) 1 = true := lowZero_append_zero _

@[simp] theorem lowZero_immCj (w : BitVec 16) : lowZero (immCj w) 1 = true := lowZero_append_zero _

theorem isRvc_rvcReg (r : BitVec 3) : isRvc (rvcReg r) = true := by
  decide +revert

@[simp] theorem isRvc_lowReg (w : BitVec 16) : isRvc (lowReg w) = true := isRvc_rvcReg _

@[simp] theorem isRvc_midReg (w : BitVec 16) : isRvc (midReg w) = true := isRvc_rvcReg _

/-! ## Words -/

/-- Every instruction an answer of a decoder holds is well-formed. -/
def OnlyWf (o : Option Instr) : Prop := ∀ i ∈ o, i.wf = true

@[simp] theorem onlyWf_none : OnlyWf none := nofun

@[simp] theorem onlyWf_some {i : Instr} : OnlyWf (some i) ↔ i.wf = true := by simp [OnlyWf]

@[simp] theorem onlyWf_map {α : Type} {f : α → Instr} {o : Option α} :
    OnlyWf (o.map f) ↔ ∀ a ∈ o, (f a).wf = true := by simp [OnlyWf]

/-- Every row of the 32-bit table spells well-formed instructions: its offsets are even, and nothing else is constrained. -/
theorem onlyWf_decode32 (w : BitVec 32) : OnlyWf (decode32 w) := by
  unfold decode32 decodeLoad decodeLoadFp decodeMiscMem decodeOpImm decodeOpImm32 decodeStore decodeStoreFp decodeAmo
    decodeOp decodeOp32 decodeMadd decodeMsub decodeNmsub decodeNmadd decodeOpFp decodeBranch decodeJalr decodeSystem
  repeat' split
  all_goals simp only [onlyWf_none, onlyWf_some, onlyWf_map, Instr.wf, lowZero_immB, lowZero_immJ, implies_true]

theorem onlyWf_decodeQ0 (w : BitVec 16) : OnlyWf (decodeQ0 w) := by
  unfold decodeQ0
  repeat' split
  all_goals simp [Instr.wf, *]

theorem onlyWf_decodeCbAlu (w : BitVec 16) : OnlyWf (decodeCbAlu w) := by
  unfold decodeCbAlu decodeCa
  repeat' split
  all_goals simp [Instr.wf]

theorem onlyWf_decodeQ1 (w : BitVec 16) : OnlyWf (decodeQ1 w) := by
  unfold decodeQ1
  repeat' split
  all_goals simp [Instr.wf, onlyWf_decodeCbAlu, *]

theorem onlyWf_decodeQ2 (w : BitVec 16) : OnlyWf (decodeQ2 w) := by
  unfold decodeQ2 decodeCr
  repeat' split
  all_goals simp [Instr.wf, *]

/-- Every row of the 16-bit table spells well-formed instructions. -/
theorem onlyWf_decode16 (w : BitVec 16) : OnlyWf (decode16 w) := by
  unfold decode16
  split
  · exact onlyWf_decodeQ0 w
  · exact onlyWf_decodeQ1 w
  · exact onlyWf_decodeQ2 w
  · exact onlyWf_none

namespace Machine

/-! ## Fetch -/

variable {s : State} {i : Instr}

theorem accept_eq_instr {w : BitVec 32} {o : Option Instr} (h : accept s w o = .instr i) : o = some i := by
  unfold accept at h
  split at h
  · split at h
    · cases h
    · exact congrArg some (Fetched.instr.inj h)
  · cases h

/-- What the front end hands on for execution is a well-formed instruction. -/
theorem fetchInstr_wf (h : fetchInstr s = .instr i) : i.wf = true := by
  unfold fetchInstr at h
  split at h
  · cases h
  split at h
  · cases h
  split at h
  · exact onlyWf_decode16 _ i (accept_eq_instr h)
  · split at h
    · cases h
    · exact onlyWf_decode32 _ i (accept_eq_instr h)
  · cases h

end Machine

end Sys2Proof
end

section
/-! What a completing instruction writes, said once for all 193: it builds its next state by register writes, flags, a new fcsr
if it is a CSR instruction, and at most one admitted request, and then goes to an even pc if it is well-formed (R51, R58, R59,
R430, R600, R658). What every step keeps of the registers, fcsr, memory and the reservation follows by induction. -/

namespace Sys2Proof.Machine

open Sys2Proof.Spec

/-- A CSR instruction (R660 to R665). -/
def IsCsr (i : Instr) : Prop :=
  ∃ rd c r u, i = .csrrw rd c r ∨ i = .csrrs rd c r ∨ i = .csrrc rd c r ∨ i = .csrrwi rd c u ∨ i = .csrrsi rd c u ∨
    i = .csrrci rd c u

/-- An LR is of a word or a doubleword (R615, R617). -/
def LrWidth : LsuReq → Prop
  | .loadReserved _ n _ _ => n = 4 ∨ n = 8
  | _ => True

/-- The states that instruction `i` can build from `s` before it moves the pc. -/
inductive Builds (i : Instr) (s : State) : State → Prop
  | start : Builds i s s
  | request {q : LsuReq} (hw : LrWidth q) (ha : admission q s = none) : Builds i s (perform q s).2
  | wx {t : State} (h : Builds i s t) (rd : XReg) (v : Word) : Builds i s (t.wx rd v)
  | wf {t : State} (h : Builds i s t) (frd : FReg) (v : Word) : Builds i s (t.wf frd v)
  | accrue {t : State} (h : Builds i s t) (fl : FlagSet) : Builds i s (t.accrue fl)
  | csr {t : State} (h : Builds i s t) (hi : IsCsr i) (v : BitVec 8) : Builds i s (t.withFcsr v)

/-- Instruction `i` in `s` stops with an event, or it goes on from a state it builds, to an even pc where it is well-formed and
stood at one. -/
def EndsWell (i : Instr) (s : State) (r : Result) : Prop :=
  (∃ e, r = raise e s) ∨
    ∃ t pc, r = .next (t.withPc pc) ∧ Builds i s t ∧ (i.wf = true → s.pc.toNat % 2 = 0 → pc.toNat % 2 = 0)

variable {i : Instr} {s t : State}

/-! ## Even addresses (R59) -/

theorem even_of_getLsbD {a : Word} (h : a.getLsbD 0 = false) : a.toNat % 2 = 0 := by
  simpa [BitVec.getLsbD, Nat.testBit_zero] using h

theorem even_add {a b : Word} (ha : a.toNat % 2 = 0) (hb : b.toNat % 2 = 0) : (a + b).toNat % 2 = 0 := by
  rw [BitVec.toNat_add]
  omega

theorem even_nextPc {len : Nat} (hlen : len % 2 = 0) (h : s.pc.toNat % 2 = 0) : (s.nextPc len).toNat % 2 = 0 :=
  even_add h (by rw [BitVec.toNat_ofNat]; omega)

/-- An offset whose low bit no piece of the encoding supplies is even (R164, R165, R181, R182). -/
theorem even_offsetSigned {n : Nat} {v : BitVec n} (h : lowZero v 1 = true) : (offsetSigned v).toNat % 2 = 0 := by
  obtain rfl | hn := Nat.eq_zero_or_pos n
  · rw [BitVec.eq_nil v]
    rfl
  · have h0 : v.getLsbD 0 = false := by simpa using congrArg (·.getLsbD 0) (beq_iff_eq.mp h)
    apply even_of_getLsbD
    rw [offsetSigned, BitVec.getLsbD_signExtend, if_pos hn, h0, Bool.and_false]

theorem even_indirectTarget (base off : Word) : (indirectTarget base off).toNat % 2 = 0 :=
  even_of_getLsbD (by simp [indirectTarget])

/-! ## The ends of an instruction -/

theorem Builds.pc (h : Builds i s t) : t.pc = s.pc := by
  induction h with
  | start => rfl
  | request => exact perform_pc _ _
  | wx _ _ _ ih | wf _ _ _ ih | accrue _ _ ih | csr _ _ _ ih => exact ih

theorem Builds.status (h : Builds i s t) : t.status = s.status := by
  induction h with
  | start => rfl
  | request => exact perform_status _ _
  | wx _ _ _ ih | wf _ _ _ ih | accrue _ _ ih | csr _ _ _ ih => exact ih

theorem raise_endsWell (e : StopEvent) (s : State) : EndsWell i s (raise e s) := .inl ⟨e, rfl⟩

theorem retire_endsWell (len : Nat) (h : Builds i s t) (hlen : len % 2 = 0) : EndsWell i s (retire len t) :=
  .inr ⟨t, _, rfl, h, fun _ hs => even_nextPc hlen (h.pc ▸ hs)⟩

theorem jumpLink_endsWell (len : Nat) (rd : XReg) {target : Word}
    (h : i.wf = true → s.pc.toNat % 2 = 0 → target.toNat % 2 = 0) : EndsWell i s (jumpLink len rd target s) :=
  .inr ⟨_, _, rfl, .wx .start rd _, h⟩

theorem branch_endsWell (len : Nat) (taken : Bool) {n : Nat} {offset : BitVec n} (hlen : len % 2 = 0)
    (h : i.wf = true → lowZero offset 1 = true) : EndsWell i s (branch len taken (offsetSigned offset) s) := by
  refine .inr ⟨s, _, rfl, .start, fun hwf hs => ?_⟩
  split
  · exact even_add hs (even_offsetSigned (h hwf))
  · exact even_nextPc hlen hs

theorem withMode_endsWell {rm : Rm} {k : RoundingMode → Result} (h : ∀ m, EndsWell i s (k m)) :
    EndsWell i s (withMode rm s k) := by
  obtain ⟨m, -, hk⟩ | ⟨-, hr⟩ := withMode_cases rm s k
  · exact hk ▸ h m
  · exact hr ▸ raise_endsWell _ s

theorem access_endsWell {q : LsuReq} {k : Word → State → Result} (hw : LrWidth q)
    (h : ∀ v t, Builds i s t → EndsWell i s (k v t)) : EndsWell i s (access q s k) := by
  obtain ⟨ha, hk⟩ | ⟨e, -, hr⟩ := access_cases q s k
  · exact hk ▸ h _ _ (.request hw ha)
  · exact hr ▸ raise_endsWell e s

theorem loadX_endsWell (len : Nat) (rd : XReg) (a : Word) (n : Nat) (ext : Word → Word) (hlen : len % 2 = 0) :
    EndsWell i s (loadX len rd a n ext s) :=
  access_endsWell trivial fun _ _ h => retire_endsWell len (h.wx rd _) hlen

theorem loadF_endsWell (len : Nat) (frd : FReg) (a : Word) (n : Nat) (box : Word → Word) (hlen : len % 2 = 0) :
    EndsWell i s (loadF len frd a n box s) :=
  access_endsWell trivial fun _ _ h => retire_endsWell len (h.wf frd _) hlen

theorem storeBytes_endsWell (len : Nat) (a : Word) (n : Nat) (v : Word) (hlen : len % 2 = 0) :
    EndsWell i s (storeBytes len a n v s) :=
  access_endsWell trivial fun _ _ h => retire_endsWell len h hlen

theorem loadReserved_endsWell {n : Nat} (rd rs1 : XReg) (aq rl : Bool) (hn : n = 4 ∨ n = 8) :
    EndsWell i s (loadReserved n rd rs1 aq rl s) :=
  access_endsWell hn fun _ _ h => retire_endsWell 4 (h.wx rd _) rfl

theorem storeConditional_endsWell (n : Nat) (rd rs1 rs2 : XReg) (aq rl : Bool) :
    EndsWell i s (storeConditional n rd rs1 rs2 aq rl s) :=
  access_endsWell trivial fun _ _ h => retire_endsWell 4 (h.wx rd _) rfl

theorem readModifyWrite_endsWell (kind : AmoKind) (n : Nat) (rd rs1 rs2 : XReg) (aq rl : Bool) :
    EndsWell i s (readModifyWrite kind n rd rs1 rs2 aq rl s) :=
  access_endsWell trivial fun _ _ h => retire_endsWell 4 (h.wx rd _) rfl

theorem csrAccess_endsWell (rd : XReg) (csr : Csr) (new : Option Word) (hi : IsCsr i) :
    EndsWell i s (csrAccess rd csr new s) := by
  cases new with
  | none => exact retire_endsWell 4 (.wx .start rd _) rfl
  | some v => exact retire_endsWell 4 (.csr (.wx .start rd _) hi _) rfl

/-- Every instruction stops with an event or goes on, to an even pc where it is well-formed, from a state it builds. -/
theorem exec_endsWell (i : Instr) (s : State) : EndsWell i s (exec i s) := by
  unfold exec
  cases i with
  | ecall | ebreak | cEbreak => exact raise_endsWell _ s
  -- control transfers
  | jal _ offset | cJ offset => exact jumpLink_endsWell _ _ fun hwf hs => even_add hs (even_offsetSigned hwf)
  | jalr | cJr | cJalr => exact jumpLink_endsWell _ _ fun _ _ => even_indirectTarget _ _
  | beq | bne | blt | bge | bltu | bgeu => exact branch_endsWell _ _ rfl id
  | cBeqz | cBnez => exact branch_endsWell _ _ rfl fun hwf => (Bool.and_eq_true_iff.mp hwf).2
  -- memory
  | lb | lh | lw | ld | lbu | lhu | lwu | cLw | cLd | cLwsp | cLdsp => exact loadX_endsWell _ _ _ _ _ rfl
  | flw | fld | cFld | cFldsp => exact loadF_endsWell _ _ _ _ _ rfl
  | sb | sh | sw | sd | fsw | fsd | cSw | cSd | cSwsp | cSdsp | cFsd | cFsdsp => exact storeBytes_endsWell _ _ _ _ rfl
  | lrW => exact loadReserved_endsWell _ _ _ _ (.inl rfl)
  | lrD => exact loadReserved_endsWell _ _ _ _ (.inr rfl)
  | scW | scD => exact storeConditional_endsWell _ _ _ _ _ _
  | amoswapW | amoaddW | amoxorW | amoandW | amoorW | amominW | amomaxW | amominuW | amomaxuW
  | amoswapD | amoaddD | amoxorD | amoandD | amoorD | amominD | amomaxD | amominuD | amomaxuD =>
    exact readModifyWrite_endsWell _ _ _ _ _ _ _
  -- fences and CSRs
  | fence | fenceI => exact retire_endsWell _ .start rfl
  | csrrw rd c r | csrrs rd c r | csrrc rd c r => exact csrAccess_endsWell _ _ _ ⟨rd, c, r, 0, by simp⟩
  | csrrwi rd c u | csrrsi rd c u | csrrci rd c u => exact csrAccess_endsWell _ _ _ ⟨rd, c, 0, u, by simp⟩
  -- floating point
  | fmaddS | fmsubS | fnmsubS | fnmaddS | faddS | fsubS | fmulS | fdivS | fsqrtS
  | fcvtSW | fcvtSWU | fcvtSL | fcvtSLU | fcvtSD
  | fmaddD | fmsubD | fnmsubD | fnmaddD | faddD | fsubD | fmulD | fdivD | fsqrtD
  | fcvtDW | fcvtDWU | fcvtDL | fcvtDLU | fcvtDS =>
    exact withMode_endsWell fun _ => retire_endsWell _ (.accrue (.wf .start _ _) _) rfl
  | fcvtWS | fcvtWUS | fcvtLS | fcvtLUS | fcvtWD | fcvtWUD | fcvtLD | fcvtLUD =>
    exact withMode_endsWell fun _ => retire_endsWell _ (.accrue (.wx .start _ _) _) rfl
  | fminS | fmaxS | fminD | fmaxD => exact retire_endsWell _ (.accrue (.wf .start _ _) _) rfl
  | feqS | fltS | fleS | feqD | fltD | fleD => exact retire_endsWell _ (.accrue (.wx .start _ _) _) rfl
  | fsgnjS | fsgnjnS | fsgnjxS | fmvWX | fsgnjD | fsgnjnD | fsgnjxD | fmvDX =>
    exact retire_endsWell _ (.wf .start _ _) rfl
  -- every other instruction writes one integer register
  | _ => exact retire_endsWell _ (.wx .start _ _) rfl

/-! ## Flags -/

/-- frm is as before and every flag that was set is still set (R64, R430). -/
def KeepsFlags (s t : State) : Prop :=
  frmOf t.fcsr = frmOf s.fcsr ∧ fflagsOf s.fcsr &&& fflagsOf t.fcsr = fflagsOf s.fcsr

theorem keepsFlags_of_fcsr (h : t.fcsr = s.fcsr) : KeepsFlags s t := by
  simp [KeepsFlags, h]

theorem KeepsFlags.accrue (h : KeepsFlags s t) (fl : FlagSet) : KeepsFlags s (t.accrue fl) := by
  obtain ⟨hfrm, hfl⟩ := h
  refine ⟨by simpa using hfrm, ?_⟩
  rw [State.accrue_fcsr, fflagsOf_accrueFlags, BitVec.and_or_distrib_left, hfl]
  ext k hk
  simpa using fun ha _ => ha

theorem Builds.keepsFlags (h : Builds i s t) (hi : ¬ IsCsr i) : KeepsFlags s t := by
  induction h with
  | start => exact keepsFlags_of_fcsr rfl
  | request => exact keepsFlags_of_fcsr (perform_fcsr _ s)
  | wx _ _ _ ih | wf _ _ _ ih => exact ih
  | accrue _ fl ih => exact ih.accrue fl
  | csr _ hcsr => exact absurd hcsr hi

/-- Settles O57: the only write to fcsr that is no accrual is a CSR instruction's. -/
theorem flagsAreSticky : Obligations.FlagsAreSticky := by
  intro i s t ht hi
  have hcsr : ¬ IsCsr i := fun ⟨rd, c, r, u, h⟩ => by simp [hi rd c r u] at h
  obtain ⟨e, he⟩ | ⟨u, pc, hu, hb, -⟩ := ht ▸ exec_endsWell i s
  · obtain rfl := Host.Outcome.next.inj he
    exact keepsFlags_of_fcsr rfl
  · obtain rfl := Host.Outcome.next.inj hu
    exact hb.keepsFlags hcsr

end Sys2Proof.Machine
end

section
/-! What every step keeps (R51, R58, R59, R66, R100, R108, R612): each operation that an instruction's next state is built of
keeps the invariant, so do a stop event and the host's return, and a decoded instruction goes to an even pc. -/

namespace Sys2Proof.Machine

variable {s : State}

theorem State.wx_x_zero (s : State) (rd : XReg) (v : Word) : (s.wx rd v).x[0] = s.x[0] := by
  unfold State.wx
  split
  · rfl
  next hrd => exact Vector.getElem_set_ne rd.isLt (by decide) fun h => hrd (BitVec.eq_of_toNat_eq h)

theorem State.unreserve_resv_cases (s : State) : s.unreserve.resv = none ∨ s.unreserve.resv = s.resv := by
  unfold State.unreserve
  split
  · exact .inl rfl
  · exact .inr rfl

theorem State.reserve_resv_cases (s : State) (a : Word) (n : Nat) :
    (s.params.lrscMode = .reserve ∧ (s.reserve a n).resv = some ⟨a, n⟩) ∨ (s.reserve a n).resv = s.resv := by
  unfold State.reserve
  split
  next hm => exact .inl ⟨hm, rfl⟩
  · exact .inr rfl

/-- An atomic access is admitted only where it is aligned (R108). -/
theorem aligned_of_admitAtomic {kinds : List AccessKind} {a : Word} {n : Nat} (h : admitAtomic kinds a n s = none) :
    a.toNat % n = 0 := by
  by_contra hna
  simp [admitAtomic, hna] at h

theorem step_of_stopped {r : StopRecord} (hs : s.status = .stopped r) : step s = afterStop r s := by
  simp only [step, hs]

theorem step_of_ended {v : Word} (hs : s.status = .ended v) : step s = .fault (.hartEnded v) := by
  simp only [step, hs]

end Sys2Proof.Machine

namespace Sys2Proof.Spec

open Sys2Proof.Machine

variable {i : Instr} {s t : State}

/-! ## The state's operations -/

theorem Inv.wx (h : Inv s) (rd : XReg) (v : Word) : Inv (s.wx rd v) :=
  { h with x0 := (s.wx_x_zero rd v).trans h.x0 }

theorem Inv.wf (h : Inv s) (frd : FReg) (v : Word) : Inv (s.wf frd v) := { h with }

theorem Inv.accrue (h : Inv s) (fl : FlagSet) : Inv (s.accrue fl) := { h with }

theorem Inv.withFcsr (h : Inv s) (v : BitVec 8) : Inv (s.withFcsr v) := { h with }

theorem Inv.withMem (h : Inv s) {m : Memory} (hm : Memory.wf m = true) : Inv (s.withMem m) := { h with memory := hm }

/-- A hart that runs may go to any even pc (R59). -/
theorem Inv.withPc (h : Inv s) (hs : s.status = .running) {pc : Word} (hpc : pc.toNat % 2 = 0) : Inv (s.withPc pc) :=
  { h with
    pcEven := hpc
    record := fun _ hr => absurd (hs.symm.trans hr) nofun }

/-- Clearing the reservation, in reserve mode alone, leaves none in plain mode (R610, R611). -/
theorem Inv.unreserve (h : Inv s) : Inv s.unreserve := by
  obtain hr | hr := s.unreserve_resv_cases
  · exact { h with plainNoResv := fun _ => hr, resvAligned := fun r hr' => absurd (hr.symm.trans hr') nofun }
  · exact { h with
      plainNoResv := fun hp => hr.trans (h.plainNoResv hp)
      resvAligned := fun r hr' => h.resvAligned r (hr.symm.trans hr') }

/-- Reserving an aligned word or doubleword, in reserve mode alone (R108, R610, R612). -/
theorem Inv.reserve (h : Inv s) {a : Word} {n : Nat} (hn : n = 4 ∨ n = 8) (ha : a.toNat % n = 0) :
    Inv (s.reserve a n) := by
  obtain ⟨hm, hr⟩ | hr := s.reserve_resv_cases a n
  · refine { h with plainNoResv := fun hp => absurd (hm.symm.trans hp) nofun, resvAligned := fun r hr' => ?_ }
    obtain rfl := Option.some.inj (hr.symm.trans hr')
    exact ⟨hn, ha⟩
  · exact { h with
      plainNoResv := fun hp => hr.trans (h.plainNoResv hp)
      resvAligned := fun r hr' => h.resvAligned r (hr.symm.trans hr') }

/-! ## Requests -/

theorem Inv.perform {q : LsuReq} (h : Inv s) (hw : LrWidth q) (ha : admission q s = none) : Inv (perform q s).2 := by
  cases q with
  | load => exact h
  | store | amo => exact h.withMem (memWrite_wf h.memory _ _ _)
  | loadReserved a n aq rl => exact h.reserve hw (aligned_of_admitAtomic ha)
  | storeConditional a n v aq rl =>
    unfold Machine.perform
    dsimp only
    split
    · exact h.unreserve.withMem (memWrite_wf h.memory _ _ _)
    · exact h.unreserve

/-! ## Instructions -/

theorem Inv.builds (h : Inv s) (hb : Builds i s t) : Inv t := by
  induction hb with
  | start => exact h
  | request hw ha => exact h.perform hw ha
  | wx _ rd v ih => exact ih.wx rd v
  | wf _ frd v ih => exact ih.wf frd v
  | accrue _ fl ih => exact ih.accrue fl
  | csr _ _ v ih => exact ih.withFcsr v

/-- A stop records the pc and the hart's name as they are (R800, R803). -/
theorem Inv.raise {e : StopEvent} (h : Inv s) (ht : raise e s = .next t) : Inv t := by
  obtain rfl := Host.Outcome.next.inj ht
  exact { h with record := fun r hr => by cases hr; exact ⟨rfl, rfl⟩ }

/-- A well-formed instruction of a running hart keeps the invariant. -/
theorem Inv.exec (h : Inv s) (hs : s.status = .running) (hi : i.wf = true) (ht : exec i s = .next t) : Inv t := by
  obtain ⟨e, he⟩ | ⟨u, pc, hu, hb, hpc⟩ := exec_endsWell i s
  · exact h.raise (he.symm.trans ht)
  · obtain rfl := Host.Outcome.next.inj (hu.symm.trans ht)
    exact (h.builds hb).withPc (hb.status.trans hs) (hpc hi h.pcEven)

/-! ## The host -/

/-- Whatever the host answers (R610, R611, R656, R852). -/
theorem Inv.hostReturn (h : Inv s) (reply : SyscallReply) : Inv (hostReturn reply s) := by
  have hmem := (hostReturn_keeps reply s).1 h.memory
  cases reply with
  | resume v ws m =>
    exact { h.unreserve with
      memory := hmem
      x0 := (h.wx 10#5 v).x0
      pcEven := even_nextPc rfl h.pcEven
      record := nofun }
  | exit => exact ⟨hmem, rfl, rfl, fun _ => rfl, nofun, nofun⟩

theorem Inv.afterStop {r : StopRecord} (h : Inv s) (ht : afterStop r s = .next t) : Inv t := by
  unfold Machine.afterStop at ht
  split at ht
  · obtain rfl := Host.Outcome.next.inj ht
    exact h.hostReturn _
  all_goals cases ht

/-- Settles O15: an instruction, a stop at the fetch, and the host's return keep the invariant, and an ended hart has no
next state. -/
theorem stepKeepsInvariant : Obligations.StepKeepsInvariant := by
  intro s t h ht
  cases hs : s.status with
  | running =>
    cases hf : fetchInstr s with
    | instr i => exact h.exec hs (fetchInstr_wf hf) ((step_of_instr hs hf).symm.trans ht)
    | stop e => exact h.raise ((step_of_stop hs hf).symm.trans ht)
  | stopped r => exact h.afterStop ((step_of_stopped hs).symm.trans ht)
  | ended v => exact absurd ((step_of_ended hs).symm.trans ht) nofun

end Sys2Proof.Spec
end

section
/-! What an instruction asks of the load-store unit (R14, R105 to R109): every instruction with a request runs it through
`access`, and no other touches memory. An access is admitted by its alignment and then by the mapping of its bytes. -/

namespace Sys2Proof.Machine

open Sys2Proof.Spec

variable {s t : State} {i : Instr} {q : LsuReq}

/-! ## Instructions and their requests -/

/-- The answer is a next state with memory `m`. -/
def KeepsMem (m : Memory) (r : Result) : Prop := ∃ t, r = .next t ∧ t.mem = m

theorem KeepsMem.mem_eq {m : Memory} (h : KeepsMem m (.next t)) : t.mem = m := by
  obtain ⟨u, hu, hm⟩ := h
  exact Host.Outcome.next.inj hu ▸ hm

theorem raise_keepsMem (e : StopEvent) (s : State) : KeepsMem s.mem (raise e s) := ⟨_, rfl, rfl⟩

/-- The answer is that of the load-store unit to the request, from whose state the memory is left alone; without a request the
memory of `s` is left alone. -/
def AnswersRequest (s : State) (r : Result) : Option LsuReq → Prop
  | none => KeepsMem s.mem r
  | some q => ∃ k, r = access q s k ∧ ∀ v t, KeepsMem t.mem (k v t)

theorem loadX_answersRequest {a b : Word} (len : Nat) (rd : XReg) (n : Nat) (ext : Word → Word) (h : a = b) :
    AnswersRequest s (loadX len rd b n ext s) (some (.load a n)) := h ▸ ⟨_, rfl, fun _ _ => ⟨_, rfl, rfl⟩⟩

theorem loadF_answersRequest {a b : Word} (len : Nat) (frd : FReg) (n : Nat) (box : Word → Word) (h : a = b) :
    AnswersRequest s (loadF len frd b n box s) (some (.load a n)) := h ▸ ⟨_, rfl, fun _ _ => ⟨_, rfl, rfl⟩⟩

theorem storeBytes_answersRequest {a b : Word} (len n : Nat) (v : Word) (h : a = b) :
    AnswersRequest s (storeBytes len b n v s) (some (.store a n v)) := h ▸ ⟨_, rfl, fun _ _ => ⟨_, rfl, rfl⟩⟩

theorem loadReserved_answersRequest (n : Nat) (rd rs1 : XReg) (aq rl : Bool) (s : State) :
    AnswersRequest s (loadReserved n rd rs1 aq rl s) (some (.loadReserved (s.rx rs1) n aq rl)) :=
  ⟨_, rfl, fun _ _ => ⟨_, rfl, rfl⟩⟩

theorem storeConditional_answersRequest (n : Nat) (rd rs1 rs2 : XReg) (aq rl : Bool) (s : State) :
    AnswersRequest s (storeConditional n rd rs1 rs2 aq rl s) (some (.storeConditional (s.rx rs1) n (s.rx rs2) aq rl)) :=
  ⟨_, rfl, fun _ _ => ⟨_, rfl, rfl⟩⟩

theorem readModifyWrite_answersRequest (kind : AmoKind) (n : Nat) (rd rs1 rs2 : XReg) (aq rl : Bool) (s : State) :
    AnswersRequest s (readModifyWrite kind n rd rs1 rs2 aq rl s) (some (.amo kind (s.rx rs1) n (s.rx rs2) aq rl)) :=
  ⟨_, rfl, fun _ _ => ⟨_, rfl, rfl⟩⟩

theorem withMode_keepsMem {rm : Rm} {k : RoundingMode → Result} (h : ∀ m, KeepsMem s.mem (k m)) :
    KeepsMem s.mem (withMode rm s k) := by
  obtain ⟨m, -, hk⟩ | ⟨-, hr⟩ := withMode_cases rm s k
  · exact hk ▸ h m
  · exact hr ▸ raise_keepsMem _ s

theorem csrAccess_keepsMem (rd : XReg) (csr : Csr) (new : Option Word) (s : State) :
    KeepsMem s.mem (csrAccess rd csr new s) := by
  cases new with
  | none => exact ⟨_, rfl, rfl⟩
  | some v => exact ⟨_, rfl, rfl⟩

/-- Every instruction answers as the load-store unit answers `dataRequest` (R14, R109, R700). -/
theorem exec_answersRequest (i : Instr) (s : State) : AnswersRequest s (exec i s) (dataRequest i s) := by
  unfold exec dataRequest
  cases i with
  | lb | lh | lw | ld | lbu | lhu | lwu => exact loadX_answersRequest _ _ _ _ rfl
  | flw | fld => exact loadF_answersRequest _ _ _ _ rfl
  | sb | sh | sw | sd | fsw | fsd => exact storeBytes_answersRequest _ _ _ rfl
  -- a compressed one asks at the address of its expansion
  | cLw _ r u | cLd _ r u => exact loadX_answersRequest _ _ _ _ (addr_setWidth (by decide) s r u)
  | cLwsp _ u | cLdsp _ u => exact loadX_answersRequest _ _ _ _ (addr_setWidth (by decide) s 2#5 u)
  | cFld _ r u => exact loadF_answersRequest _ _ _ _ (addr_setWidth (by decide) s r u)
  | cFldsp _ u => exact loadF_answersRequest _ _ _ _ (addr_setWidth (by decide) s 2#5 u)
  | cSw _ r u | cSd _ r u | cFsd _ r u => exact storeBytes_answersRequest _ _ _ (addr_setWidth (by decide) s r u)
  | cSwsp _ u | cSdsp _ u | cFsdsp _ u => exact storeBytes_answersRequest _ _ _ (addr_setWidth (by decide) s 2#5 u)
  | lrW | lrD => exact loadReserved_answersRequest _ _ _ _ _ s
  | scW | scD => exact storeConditional_answersRequest _ _ _ _ _ _ s
  | amoswapW | amoaddW | amoxorW | amoandW | amoorW | amominW | amomaxW | amominuW | amomaxuW
  | amoswapD | amoaddD | amoxorD | amoandD | amoorD | amominD | amomaxD | amominuD | amomaxuD =>
    exact readModifyWrite_answersRequest _ _ _ _ _ _ _ s
  | csrrw | csrrs | csrrc | csrrwi | csrrsi | csrrci => exact csrAccess_keepsMem _ _ _ s
  | fmaddS | fmsubS | fnmsubS | fnmaddS | faddS | fsubS | fmulS | fdivS | fsqrtS
  | fcvtWS | fcvtWUS | fcvtLS | fcvtLUS | fcvtSW | fcvtSWU | fcvtSL | fcvtSLU | fcvtSD
  | fmaddD | fmsubD | fnmsubD | fnmaddD | faddD | fsubD | fmulD | fdivD | fsqrtD
  | fcvtWD | fcvtWUD | fcvtLD | fcvtLUD | fcvtDW | fcvtDWU | fcvtDL | fcvtDLU | fcvtDS =>
    exact withMode_keepsMem fun _ => ⟨_, rfl, rfl⟩
  -- every other instruction stops, or writes registers and the pc
  | _ => exact ⟨_, rfl, rfl⟩

/-- An instruction whose request is not admitted stops with the event that the admission gives (R105). -/
theorem stops_of_admission {e : StopEvent} (hq : dataRequest i s = some q) (ha : admission q s = some e) :
    Stops i s e := by
  obtain ⟨k, hk, -⟩ : AnswersRequest s (exec i s) (some q) := hq ▸ exec_answersRequest i s
  rw [Stops, Answers, hk, access_of_stopped ha]
  exact raise_stoppedAs e s

/-! ## Admission -/

theorem admission_misalignedAtomic (hq : AtomicRequest q) (h : (requestShape q).1.toNat % (requestShape q).2.1 ≠ 0) :
    admission q s = some (.misalignedAtomic (requestShape q).1) := by
  cases q with
  | load | store => exact hq.elim
  | loadReserved | storeConditional | amo => exact if_pos h

theorem admission_misalignedAccess (hq : ¬ AtomicRequest q) (hm : s.params.misalignedPlain = .fault)
    (h : (requestShape q).1.toNat % (requestShape q).2.1 ≠ 0) :
    admission q s = some (.misalignedAccess (requestShape q).1) := by
  cases q with
  | load | store => exact if_pos ⟨h, hm⟩
  | loadReserved | storeConditional | amo => exact absurd trivial hq

/-- Past the alignment check the mapping decides (R105, R106). -/
theorem admission_of_passesAlignment (h : PassesAlignment s q) :
    admission q s = checkMapped s.params (requestShape q).2.2 (requestShape q).1 (requestShape q).2.1 := by
  cases q with
  | load | store =>
    refine if_neg fun ⟨hna, hf⟩ => ?_
    obtain ha | ⟨-, hs⟩ := h
    · exact hna ha
    · exact absurd (hf.symm.trans hs) (by decide)
  | loadReserved | storeConditional | amo =>
    refine if_neg fun hna => ?_
    obtain ha | ⟨hna', -⟩ := h
    · exact hna ha
    · exact hna' trivial

/-- Settles O27: the alignment is the first thing the admission of a request looks at. -/
theorem misalignedStops : Obligations.MisalignedStops := by
  intro s i q hq a hna
  exact ⟨fun hat => stops_of_admission hq (admission_misalignedAtomic hat hna),
    fun hpl hf => stops_of_admission hq (admission_misalignedAccess hpl hf hna)⟩

/-! ## The byte a MemoryFault reports -/

/-- `lowest` is a least element of a list that is not empty. -/
theorem lowest_spec {l : List Word} (hl : l ≠ []) : ∃ b ∈ l, lowest l = some b ∧ ∀ c ∈ l, b.toNat ≤ c.toNat := by
  induction l with
  | nil => exact absurd rfl hl
  | cons a as ih =>
    by_cases has : as = []
    · subst has
      exact ⟨a, by simp, rfl, by simp⟩
    · obtain ⟨b, hb, heq, hle⟩ := ih has
      simp only [lowest, heq]
      split
      next hab =>
        exact ⟨a, by simp, rfl, List.forall_mem_cons.mpr ⟨le_rfl, fun c hc => le_trans hab (hle c hc)⟩⟩
      next hab =>
        exact ⟨b, by simp [hb], rfl, List.forall_mem_cons.mpr ⟨(not_le.mp hab).le, hle⟩⟩

variable {p : Params} {kinds : List AccessKind} {a b : Word} {n : Nat}

theorem mem_failingBytes :
    b ∈ failingBytes p kinds a n ↔ b ∈ accessBytes a n ∧ ∃ k ∈ kinds, mapped p b k = false := by
  simp [failingBytes, missingKind]

/-- An access with a byte that is not mapped fails at the least such byte, with the first kind missing there (R106, R801). -/
theorem checkMapped_of_unmapped (h : ∃ b ∈ accessBytes a n, ∃ k ∈ kinds, mapped p b k = false) :
    ∃ b ∈ accessBytes a n, ∃ k, missingKind p kinds b = some k ∧ checkMapped p kinds a n = some (.memoryFault b k) ∧
      ∀ c ∈ accessBytes a n, c.toNat < b.toNat → ∀ j ∈ kinds, mapped p c j = true := by
  obtain ⟨d, hd, hdk⟩ := h
  obtain ⟨b, hb, hlow, hle⟩ := lowest_spec (List.ne_nil_of_mem (mem_failingBytes.mpr ⟨hd, hdk⟩))
  obtain ⟨k, hk⟩ := Option.isSome_iff_exists.mp (List.mem_filter.mp hb).2
  refine ⟨b, (mem_failingBytes.mp hb).1, k, hk, by simp only [checkMapped, hlow, hk, Option.map_some], ?_⟩
  intro c hc hcb j hj
  by_contra hj'
  have hfail : c ∈ failingBytes p kinds a n := mem_failingBytes.mpr ⟨hc, j, hj, Bool.eq_false_of_not_eq_true hj'⟩
  exact absurd (hle c hfail) (not_le.mpr hcb)

theorem missingKind_eq_some {k : AccessKind} (h : missingKind p kinds b = some k) :
    k ∈ kinds ∧ mapped p b k = false :=
  ⟨List.mem_of_find?_eq_some h, by simpa using List.find?_some h⟩

/-- Of the kinds of a request the read comes first: where the write is what fails, the read is mapped (R106). -/
theorem read_mapped_of_missing_write (h : missingKind p (requestShape q).2.2 b = some .write)
    (hr : .read ∈ (requestShape q).2.2) : mapped p b .read = true := by
  cases q with
  | load | loadReserved => exact absurd (missingKind_eq_some h).1 (by simp [requestShape])
  | store | storeConditional => exact absurd hr (by simp [requestShape])
  | amo =>
    by_contra hm
    simp [missingKind, requestShape, hm] at h

/-- Settles O28: past the alignment check, the mapping check fails at the least unmapped byte. -/
theorem unmappedAccessStops : Obligations.UnmappedAccessStops := by
  intro s i q hq hal bytes kinds hun
  obtain ⟨b, hb, k, hk, hcheck, hleast⟩ := checkMapped_of_unmapped hun
  obtain ⟨hmem, hmap⟩ := missingKind_eq_some hk
  refine ⟨b, hb, k, hmem, hmap, ?_, hleast, fun hw hr => read_mapped_of_missing_write (hw ▸ hk) hr⟩
  exact stops_of_admission hq ((admission_of_passesAlignment hal).trans hcheck)

end Sys2Proof.Machine
end

section
/-! Loads and stores by the bytes they read and write (46_loadstore.md, 20_memory.md R102 to R104): the value of an access is
its bytes in base 256, the one at the address the least significant. -/

namespace Sys2Proof.Machine

open Sys2Proof.Spec

variable {m : Memory} {a : Word} {n : Nat}

/-! ## The bytes of a value -/

theorem leNat_lt (m : Memory) (a : Word) (n : Nat) : leNat m a n < 256 ^ n := by
  induction n generalizing a with
  | zero => exact Nat.one_pos
  | succ n ih =>
    have hb := (byteAt m a.toNat).isLt
    have hr := ih (a + 1#64)
    rw [leNat, Nat.pow_succ]
    omega

/-- `MemRead` gives the little-endian number of the bytes (R102). -/
theorem toNat_memRead (m : Memory) (a : Word) (hn : n ≤ 8) : (memRead m a n).toNat = leNat m a n := by
  induction n generalizing a with
  | zero => rfl
  | succ n ih =>
    have hb := (byteAt m a.toNat).isLt
    have hlt : leNat m (a + 1#64) n < 2 ^ 56 :=
      (leNat_lt m _ n).trans_le (Nat.pow_le_pow_right (by decide) (Nat.le_of_succ_le_succ hn) : 256 ^ n ≤ 256 ^ 7)
    rw [memRead, leNat, BitVec.toNat_or, BitVec.toNat_setWidth_of_le (by decide), BitVec.toNat_shiftLeft,
      ih _ (Nat.le_of_succ_le hn), Nat.shiftLeft_eq, Nat.mod_eq_of_lt (by omega), Nat.or_comm, Nat.mul_comm,
      ← Nat.two_pow_add_eq_or_of_lt hb, Nat.add_comm]

theorem memRead_eq_ofNat (m : Memory) (a : Word) (hn : n ≤ 8) : memRead m a n = BitVec.ofNat 64 (leNat m a n) := by
  rw [← toNat_memRead m a hn, BitVec.ofNat_toNat, BitVec.setWidth_eq]

/-- Bytes that are the base-256 digits of `v` are the number `v` modulo the width. -/
theorem leNat_of_digits {v : Nat}
    (h : ∀ i < n, (byteAt m (a + BitVec.ofNat 64 i).toNat).toNat = v / 256 ^ i % 256) : leNat m a n = v % 256 ^ n := by
  induction n generalizing a v with
  | zero => exact (Nat.mod_one v).symm
  | succ n ih =>
    have h0 : (byteAt m a.toNat).toNat = v % 256 := by simpa using h 0 n.succ_pos
    have htail : leNat m (a + 1#64) n = v / 256 % 256 ^ n := ih fun i hi => by
      rw [BitVec.add_assoc, ← BitVec.ofNat_add, Nat.add_comm 1, h (i + 1) (Nat.succ_lt_succ hi), Nat.div_div_eq_div_mul,
        Nat.pow_succ']
    rw [leNat, h0, htail, Nat.pow_succ', Nat.mod_mul]

/-- A byte just stored is a base-256 digit of the value (R102). -/
theorem toNat_byteAt_memWrite (hw : Memory.wf m = true) (a v : Word) {i : Nat} (hi : i < n) (hn : n ≤ 8) :
    (byteAt (memWrite m a n v) (a + BitVec.ofNat 64 i).toNat).toNat = v.toNat / 256 ^ i % 256 := by
  rw [byteAt_memWrite_inside hw a n v hi (hn.trans (by decide)), BitVec.toNat_setWidth, BitVec.toNat_ushiftRight,
    Nat.shiftRight_eq_div_pow, Nat.pow_mul]

/-- Settles O29: the bytes read are digits of the value, from that of the offset on. -/
theorem mixedWidthReads : Obligations.MixedWidthReads := by
  intro m a v w k n hwf hw hkn
  rw [toNat_memRead _ _ (by omega)]
  refine leNat_of_digits fun i hi => ?_
  rw [BitVec.add_assoc, ← BitVec.ofNat_add, toNat_byteAt_memWrite hwf a v (by omega) hw, Nat.pow_add,
    Nat.div_div_eq_div_mul]

/-! ## Extensions of a loaded value (R571, R437) -/

theorem sextBytes_memRead (m : Memory) (a : Word) (hn : n ≤ 8) :
    sextBytes n (memRead m a n) = BitVec.ofInt 64 (BitVec.ofNat (8 * n) (leNat m a n)).toInt := by
  rw [memRead_eq_ofNat m a hn, sextBytes, BitVec.setWidth_ofNat_of_le (by omega)]
  rfl

theorem zextBytes_memRead (m : Memory) (a : Word) (hn : n ≤ 8) :
    zextBytes n (memRead m a n) = BitVec.ofNat 64 (leNat m a n) := by
  have hlt : leNat m a n < 2 ^ (8 * n) := by simpa only [Nat.pow_mul] using leNat_lt m a n
  apply BitVec.eq_of_toNat_eq
  rw [memRead_eq_ofNat m a hn, zextBytes, BitVec.setWidth_ofNat_of_le (by omega),
    BitVec.toNat_setWidth_of_le (by omega), BitVec.toNat_ofNat, BitVec.toNat_ofNat, Nat.mod_eq_of_lt hlt,
    Nat.mod_eq_of_lt (hlt.trans_le (Nat.pow_le_pow_right (by decide) (by omega)))]

/-- A boxed word has ones above the word (R410). -/
theorem boxS_memRead (m : Memory) (a : Word) :
    boxS (low32 (memRead m a 4)) = BitVec.ofNat 64 (0xFFFFFFFF * 2 ^ 32 + leNat m a 4) := by
  have hlt : leNat m a 4 < 2 ^ 32 := leNat_lt m a 4
  apply BitVec.eq_of_toNat_eq
  rw [memRead_eq_ofNat m a (by decide), low32, BitVec.setWidth_ofNat_of_le (by decide), boxS, BitVec.toNat_append,
    BitVec.toNat_ofNat, BitVec.toNat_ofNat, BitVec.toNat_ofNat, Nat.mod_eq_of_lt hlt, Nat.shiftLeft_eq, Nat.mul_comm,
    ← Nat.two_pow_add_eq_or_of_lt hlt]
  omega

/-! ## Plain accesses -/

variable {s : State} {i : Instr}

theorem plainAligned_one (s : State) (a : Word) : PlainAligned s a 1 := .inl (Nat.mod_one _)

theorem admitPlain_of_mapped {k : AccessKind} (ha : PlainAligned s a n) (hm : MappedAll s a n k) :
    admitPlain [k] a n s = none := by
  have hal : ¬ (a.toNat % n ≠ 0 ∧ s.params.misalignedPlain = .fault) := fun ⟨hna, hf⟩ =>
    ha.elim hna fun hs => absurd (hf.symm.trans hs) (by decide)
  rw [admitPlain, if_neg hal, checkMapped_eq_none]
  exact fun b hb j hj => List.mem_singleton.mp hj ▸ hm b hb

theorem xIs_wx (s : State) (rd : XReg) (v pc : Word) : XIs s ((s.wx rd v).withPc pc) rd v := fun j => by
  rw [State.rx_withPc, State.rx_wx]
  exact if_congr (and_congr_left' eq_comm) rfl rfl

theorem fIs_wf (s : State) (frd : FReg) (v pc : Word) : FIs s ((s.wf frd v).withPc pc) frd v := fun j => by
  rw [State.rf_withPc, State.rf_wf]
  exact if_congr eq_comm rfl rfl

/-- An integer load that is admitted writes the extended value to rd and moves the pc (R571, R573). -/
theorem setsX_of_loadX {len : Nat} {rd : XReg} {ext : Word → Word} {v : Word} (hi : exec i s = loadX len rd a n ext s)
    (hv : ext (memRead s.mem a n) = v) (ha : PlainAligned s a n) (hm : MappedAll s a n .read) :
    SetsX i s (s.nextPc len) rd v := by
  have hadm : admission (.load a n) s = none := admitPlain_of_mapped ha hm
  subst hv
  exact ⟨_, hi.trans (access_of_admitted hadm _), rfl, xIs_wx s rd _ _, fun _ => rfl, rfl, fun _ => rfl, ⟨rfl, rfl⟩,
    sameHost_refl s⟩

/-- A floating-point load that is admitted writes the container to frd and moves the pc (R437). -/
theorem setsF_of_loadF {len : Nat} {frd : FReg} {box : Word → Word} {v : Word} (hi : exec i s = loadF len frd a n box s)
    (hv : box (memRead s.mem a n) = v) (ha : PlainAligned s a n) (hm : MappedAll s a n .read) :
    SetsF i s (s.nextPc len) frd v := by
  have hadm : admission (.load a n) s = none := admitPlain_of_mapped ha hm
  subst hv
  exact ⟨_, hi.trans (access_of_admitted hadm _), rfl, fun _ => rfl, fIs_wf s frd _ _, rfl, fun _ => rfl, ⟨rfl, rfl⟩,
    sameHost_refl s⟩

/-- A store that is admitted writes the low bytes of the value and moves the pc (R437, R572). -/
theorem stores_of_storeBytes {len : Nat} {v : Word} (hi : exec i s = storeBytes len a n v s) (hn : n ≤ 8)
    (hw : Memory.wf s.mem = true) (ha : PlainAligned s a n) (hm : MappedAll s a n .write) :
    Stores i s (s.nextPc len) a n v := by
  have hadm : admission (.store a n v) s = none := admitPlain_of_mapped ha hm
  have hbytes : BytesAre s (s.withMem (memWrite s.mem a n v)) a n v :=
    ⟨fun _ hk => toNat_byteAt_memWrite hw a v hk hn, fun _ hb => byteAt_memWrite_outside s.mem a n v _ hb⟩
  exact ⟨_, hi.trans (access_of_admitted hadm _), rfl, fun _ => rfl, fun _ => rfl, rfl, hbytes, ⟨rfl, rfl⟩,
    sameHost_refl s⟩

/-- Settles O25: an admitted load writes the extension of the bytes read. -/
theorem loadsReadBytes : Obligations.LoadsReadBytes := by
  intro s rd rs1 frd imm a v
  refine ⟨fun hm => ?_, fun ha hm => ?_, fun ha hm => ?_, fun ha hm => ?_⟩
  · have ha := plainAligned_one s a
    exact ⟨setsX_of_loadX rfl (sextBytes_memRead _ _ (by decide)) ha hm,
      setsX_of_loadX rfl (zextBytes_memRead _ _ (by decide)) ha hm⟩
  · exact ⟨setsX_of_loadX rfl (sextBytes_memRead _ _ (by decide)) ha hm,
      setsX_of_loadX rfl (zextBytes_memRead _ _ (by decide)) ha hm⟩
  · exact ⟨setsX_of_loadX rfl (sextBytes_memRead _ _ (by decide)) ha hm,
      setsX_of_loadX rfl (zextBytes_memRead _ _ (by decide)) ha hm,
      setsF_of_loadF (box := fun v => boxS (low32 v)) rfl (boxS_memRead _ _) ha hm⟩
  · exact ⟨setsX_of_loadX rfl (memRead_eq_ofNat _ _ (by decide)) ha hm,
      setsF_of_loadF rfl (memRead_eq_ofNat _ _ (by decide)) ha hm⟩

/-- Settles O26: an admitted store writes the bytes of the source register. -/
theorem storesWriteBytes : Obligations.StoresWriteBytes := by
  intro s rs2 rs1 frs2 imm hw a
  refine ⟨fun hm => ?_, fun ha hm => ?_, fun ha hm => ?_, fun ha hm => ?_⟩
  · exact stores_of_storeBytes rfl (by decide) hw (plainAligned_one s a) hm
  · exact stores_of_storeBytes rfl (by decide) hw ha hm
  · exact ⟨stores_of_storeBytes rfl (by decide) hw ha hm, stores_of_storeBytes rfl (by decide) hw ha hm⟩
  · exact ⟨stores_of_storeBytes rfl (by decide) hw ha hm, stores_of_storeBytes rfl (by decide) hw ha hm⟩

end Sys2Proof.Machine
end

section
/-! The memory events of a step (20_memory.md R120 to R127): memory changes only at the bytes of its write events, and an atomic
access carries the order its aq and rl bits select. -/

namespace Sys2Proof.Machine

open Sys2Proof.Spec

variable {s t : State} {i : Instr} {q : LsuReq} {a b : Word} {n : Nat}

/-- The event writes memory (R120). -/
def MemEvent.Writing (e : MemEvent) : Prop := e.kind = .write ∨ e.kind = .rmw

/-- No writing event of the list has the byte `a`. -/
def Untouched (a : Word) (evs : List MemEvent) : Prop := ∀ e ∈ evs, e.Writing → a ∉ accessBytes e.addr e.bytes

/-! ## The data access -/

theorem dataEvents_of_request (hq : dataRequest i s = some q) :
    dataEvents n i s = if (admission q s).isNone then requestEvents q ⟨n, 2⟩ s else [] := by
  have hf : isFence i = false := by
    cases i with
    | fence => cases hq
    | _ => rfl
  simp only [dataEvents, hf, hq, Bool.false_eq_true, if_false]

theorem mem_requestEvents_of_dataEvents {e : MemEvent} (hq : dataRequest i s = some q) (he : e ∈ dataEvents n i s) :
    e ∈ requestEvents q ⟨n, 2⟩ s := by
  rw [dataEvents_of_request hq] at he
  split at he
  · exact he
  · cases he

/-- The one-byte writes of a misaligned store are of the bytes of the whole (R107, R110). -/
theorem not_mem_of_untouched_store {p : Position} {v : Word} (h : Untouched a (requestEvents (.store b n v) p s)) :
    a ∉ accessBytes b n := by
  unfold requestEvents at h
  dsimp only at h
  split at h
  · exact h _ (List.mem_singleton.mpr rfl) (.inl rfl)
  · intro hmem
    obtain ⟨j, hj, rfl⟩ := mem_accessBytes.mp hmem
    exact h _ (List.mem_map.mpr ⟨j, List.mem_range.mpr hj, rfl⟩) (.inl rfl) (List.mem_singleton.mpr rfl)

/-- A request that is performed changes memory only at the bytes of its own writing events. -/
theorem byteAt_perform_of_untouched {p : Position} (h : Untouched a (requestEvents q p s)) :
    byteAt (perform q s).2.mem a.toNat = byteAt s.mem a.toNat := by
  cases q with
  | load | loadReserved => rfl
  | store b n v => exact byteAt_memWrite_outside _ _ _ _ _ (not_mem_of_untouched_store h)
  | amo kind b n v aq rl =>
    exact byteAt_memWrite_outside _ _ _ _ _ (h _ (List.mem_singleton.mpr rfl) (.inr rfl))
  | storeConditional b n v aq rl =>
    unfold requestEvents at h
    unfold perform
    dsimp only at h ⊢
    by_cases hsc : s.scSucceeds b n = true
    · rw [if_pos hsc] at h ⊢
      exact byteAt_memWrite_outside _ _ _ _ _ (h _ (List.mem_singleton.mpr rfl) (.inl rfl))
    · rw [if_neg hsc]
      rfl

/-- An instruction changes memory only at the bytes of its data events. -/
theorem byteAt_exec_of_untouched (ht : exec i s = .next t) (h : Untouched a (dataEvents n i s)) :
    byteAt t.mem a.toNat = byteAt s.mem a.toNat := by
  have hr := exec_answersRequest i s
  rw [ht] at hr
  cases hq : dataRequest i s with
  | none =>
    rw [hq] at hr
    exact hr.mem_eq ▸ rfl
  | some q =>
    rw [hq] at hr
    obtain ⟨k, hk, hkeeps⟩ := hr
    obtain ⟨hadm, hgo⟩ | ⟨e, -, hstop⟩ := access_cases q s k
    · rw [dataEvents_of_request hq, hadm, Option.isNone_none, if_pos rfl] at h
      have hmem := (hk.trans hgo ▸ hkeeps _ _ : KeepsMem (perform q s).2.mem (.next t)).mem_eq
      exact hmem ▸ byteAt_perform_of_untouched h
    · exact (hk.trans hstop ▸ raise_keepsMem e s : KeepsMem s.mem (.next t)).mem_eq ▸ rfl

/-! ## The host's writes -/

/-- Every byte the host wrote is among its writes as they end up. -/
theorem exists_mem_lastWrites {ws : List (Word × Byte)} {c : Word × Byte} (hc : c ∈ ws) :
    ∃ d ∈ lastWrites ws, d.1 = c.1 := by
  induction ws generalizing c with
  | nil => cases hc
  | cons w ws ih =>
    rw [lastWrites]
    split
    next hlater =>
      obtain rfl | hc := List.mem_cons.mp hc
      · obtain ⟨d, hd, hdc⟩ := List.any_eq_true.mp hlater
        obtain ⟨e, he, hed⟩ := ih hd
        exact ⟨e, he, hed.trans (beq_iff_eq.mp hdc)⟩
      · exact ih hc
    next =>
      obtain rfl | hc := List.mem_cons.mp hc
      · exact ⟨c, List.mem_cons_self .., rfl⟩
      · obtain ⟨d, hd, hdc⟩ := ih hc
        exact ⟨d, List.mem_cons_of_mem _ hd, hdc⟩

/-- The host's return changes memory only at the bytes of its reply's events (R120, R655). -/
theorem byteAt_hostReturn_of_untouched {reply : SyscallReply} (h : Untouched a (replyEvents n reply s)) :
    byteAt (hostReturn reply s).mem a.toNat = byteAt s.mem a.toNat := by
  cases reply with
  | exit => rfl
  | resume v ws m =>
    refine byteAt_writeBytes_other s.mem ws fun c hc hca => ?_
    obtain ⟨d, hd, hdc⟩ := exists_mem_lastWrites hc
    exact h _ (List.mem_map.mpr ⟨d, hd, rfl⟩) (.inl rfl) (List.mem_singleton.mpr (hdc.trans hca).symm)

theorem byteAt_afterStop_of_untouched {r : StopRecord} (ht : afterStop r s = .next t)
    (h : Untouched a (waitEvents n r s)) : byteAt t.mem a.toNat = byteAt s.mem a.toNat := by
  unfold afterStop at ht
  unfold waitEvents at h
  cases he : r.event with
  | syscall =>
    simp only [he] at ht h
    obtain rfl := Host.Outcome.next.inj ht
    exact byteAt_hostReturn_of_untouched h
  | _ =>
    simp only [he] at ht
    cases ht

/-- Settles O30: the data access of an instruction, or the host's reply, writes at its events; nothing else writes memory. -/
theorem memoryChangesByEvents : Obligations.MemoryChangesByEvents := by
  intro s t n a ht h
  unfold stepEvents at h
  cases hs : s.status with
  | running =>
    cases hf : fetchInstr s with
    | instr i =>
      simp only [hs, hf] at h
      exact byteAt_exec_of_untouched ((step_of_instr hs hf).symm.trans ht) fun e he => h e (List.mem_append_right _ he)
    | stop e =>
      have hkeeps : KeepsMem s.mem (.next t) := (step_of_stop hs hf).symm.trans ht ▸ raise_keepsMem e s
      rw [hkeeps.mem_eq]
  | stopped r =>
    simp only [hs] at h
    exact byteAt_afterStop_of_untouched ((step_of_stopped hs).symm.trans ht) h
  | ended v => exact absurd ((step_of_ended hs).symm.trans ht) nofun

/-! ## The order of an atomic access (R127) -/

theorem lrOrder_iff (aq rl : Bool) :
    (lrOrder aq rl = .acquire ↔ aq = true) ∧ (lrOrder aq rl = .relaxed ↔ aq = false) := by
  cases aq <;> simp [lrOrder]

theorem scOrder_iff (aq rl : Bool) :
    (scOrder aq rl = .release ↔ rl = true) ∧ (scOrder aq rl = .relaxed ↔ rl = false) := by
  cases rl <;> simp [scOrder]

theorem amoOrder_iff (aq rl : Bool) :
    (amoOrder aq rl = .relaxed ↔ aq = false ∧ rl = false) ∧ (amoOrder aq rl = .acquire ↔ aq = true ∧ rl = false) ∧
    (amoOrder aq rl = .release ↔ aq = false ∧ rl = true) ∧ (amoOrder aq rl = .acqRel ↔ aq = true ∧ rl = true) := by
  cases aq <;> cases rl <;> decide

variable {k : Nat} {v : Word} {aq rl : Bool}

/-- An LR's event is a read, an acquire by aq alone, and reserves in reserve mode (R127, R612). -/
theorem lr_event (hq : dataRequest i s = some (.loadReserved b k aq rl)) : ∀ e ∈ dataEvents n i s,
    e.kind = .read ∧ (e.order = .acquire ↔ aq = true) ∧ (e.order = .relaxed ↔ aq = false) ∧
      (e.reserves = true ↔ s.params.lrscMode = .reserve) := by
  intro e he
  obtain rfl := List.mem_singleton.mp (mem_requestEvents_of_dataEvents hq he)
  obtain ⟨hacquire, hrelaxed⟩ := lrOrder_iff aq rl
  exact ⟨rfl, hacquire, hrelaxed, decide_eq_true_iff⟩

/-- An SC's event is a write, a release by rl alone, and continues a release sequence in reserve mode (R123, R127). -/
theorem sc_event (hq : dataRequest i s = some (.storeConditional b k v aq rl)) : ∀ e ∈ dataEvents n i s,
    e.kind = .write ∧ (e.order = .release ↔ rl = true) ∧ (e.order = .relaxed ↔ rl = false) ∧
      (e.continues = true ↔ s.params.lrscMode = .reserve) := by
  intro e he
  have hmem := mem_requestEvents_of_dataEvents hq he
  unfold requestEvents at hmem
  dsimp only at hmem
  split at hmem
  · obtain rfl := List.mem_singleton.mp hmem
    obtain ⟨hrelease, hrelaxed⟩ := scOrder_iff aq rl
    exact ⟨rfl, hrelease, hrelaxed, decide_eq_true_iff⟩
  · cases hmem

/-- An AMO's event is a read-modify-write that continues a release sequence, with the order of aq and rl (R123, R127). -/
theorem amo_event {kind : AmoKind} (hq : dataRequest i s = some (.amo kind b k v aq rl)) : ∀ e ∈ dataEvents n i s,
    e.kind = .rmw ∧ e.continues = true ∧
      (e.order = .relaxed ↔ aq = false ∧ rl = false) ∧ (e.order = .acquire ↔ aq = true ∧ rl = false) ∧
      (e.order = .release ↔ aq = false ∧ rl = true) ∧ (e.order = .acqRel ↔ aq = true ∧ rl = true) := by
  intro e he
  obtain rfl := List.mem_singleton.mp (mem_requestEvents_of_dataEvents hq he)
  exact ⟨rfl, rfl, amoOrder_iff aq rl⟩

/-- Settles O34: each instruction of the three lists makes the request whose event is said above. -/
theorem atomicOrders : Obligations.AtomicOrders := by
  intro s n rd rs1 rs2 aq rl
  refine ⟨?_, ?_, ?_⟩
  · exact List.forall_mem_cons.mpr ⟨lr_event rfl, List.forall_mem_singleton.mpr (lr_event rfl)⟩
  · exact List.forall_mem_cons.mpr ⟨sc_event rfl, List.forall_mem_singleton.mpr (sc_event rfl)⟩
  · iterate 18 refine List.forall_mem_cons.mpr ⟨amo_event rfl, ?_⟩
    exact nofun

end Sys2Proof.Machine
end

section
/-! Consistent executions (20_memory.md R110, R123 to R129): synchronization puts a write before a read, fences order both sides
of store buffering, and an indivisible read is of one write. -/

namespace Sys2Proof.Machine.Execution

variable {X : Execution} {x y : Nat} {a b : Word}

theorem hb_of_po (h : X.po x y) : X.hb x y := .single (.inl h)

theorem hb_of_sw (h : X.sw x y) : X.hb x y := .single (.inr (.inl h))

/-- Message passing (R123, R125): a write before a release is seen by a read after the acquire that reads from it. -/
theorem sees_of_passing (hX : X.Consistent) {data release flag read acquire last : Nat} (hdata : X.Writes data a)
    (hbefore : X.po data release) (hrel : X.ReleasesAt release flag) (hseq : X.ReadsFromSeq flag read)
    (hacq : X.AcquiresAt acquire read) (hafter : X.po acquire last) (hlast : X.Reads last a) : X.Sees last data a := by
  have hsync : X.hb release acquire := hb_of_sw ⟨flag, read, hrel, hseq, hacq⟩
  have hhb : X.hb data last := ((hb_of_po hbefore).trans hsync).trans (hb_of_po hafter)
  exact hX.coherent.write_read data last a hdata hlast hhb

/-- Store buffering (R124): whichever FENCE is the later, the read after it sees the write before the other. -/
theorem sees_of_fenced (hX : X.Consistent) {w1 f1 r1 w2 f2 r2 : Nat} (hw1 : X.Writes w1 a) (hwf1 : X.po w1 f1)
    (hf1 : X.IsFence f1) (hfr1 : X.po f1 r1) (hr1 : X.Reads r1 b) (hw2 : X.Writes w2 b) (hwf2 : X.po w2 f2)
    (hf2 : X.IsFence f2) (hfr2 : X.po f2 r2) (hr2 : X.Reads r2 a) (hne : f1 ≠ f2) :
    X.Sees r1 w2 b ∨ X.Sees r2 w1 a := by
  obtain heq | h12 | h21 := hX.fencesOrdered.total f1 f2 hf1 hf2
  · exact absurd heq hne
  · exact .inr (hX.fencesOrdered.write_read _ _ _ _ _ hw1 hr2 hwf1 hf1 h12 hf2 hfr2)
  · exact .inl (hX.fencesOrdered.write_read _ _ _ _ _ hw2 hr1 hwf2 hf2 h21 hf1 hfr1)

/-! ## Whole reads (R110) -/

/-- The event named `w` has exactly the bytes of `rv`. -/
def SameFootprint (X : Execution) (rv : MemEvent) (w : Nat) : Prop :=
  ∃ wv, X.Is w wv ∧ wv.addr = rv.addr ∧ wv.bytes = rv.bytes

variable {r w : Nat} {rv : MemEvent}

/-- A write of the footprint writes every byte of it. -/
theorem Writes.of_footprint (h : X.Writes w a) (hw : X.SameFootprint rv w) (hb : b ∈ accessBytes rv.addr rv.bytes) :
    X.Writes w b := by
  obtain ⟨ev, hev, -, hkind⟩ := h
  obtain ⟨wv, hwv, haddr, hbytes⟩ := hw
  obtain rfl := Option.some.inj (hev.symm.trans hwv)
  exact ⟨ev, hev, haddr.symm ▸ hbytes.symm ▸ hb, hkind⟩

theorem SameFootprint.indivisible (hw : X.SameFootprint rv w) (hi : rv.Indivisible) :
    ∃ wv, X.Is w wv ∧ wv.Indivisible := by
  obtain ⟨wv, hwv, haddr, hbytes⟩ := hw
  exact ⟨wv, hwv, by rwa [MemEvent.Indivisible, haddr, hbytes]⟩

/-- An indivisible read whose bytes come from writes of its own footprint returns one write: of two, each would be later than
the other at one of the bytes, where their order is the same on all. -/
theorem rf_eq_of_sameFootprint (hX : X.Consistent) (hr : X.Is r rv) (hi : rv.Indivisible)
    (hk : rv.kind = .read ∨ rv.kind = .rmw)
    (hfoot : ∀ a ∈ accessBytes rv.addr rv.bytes, X.SameFootprint rv (X.rf r a))
    (ha : a ∈ accessBytes rv.addr rv.bytes) (hb : b ∈ accessBytes rv.addr rv.bytes) : X.rf r a = X.rf r b := by
  have hra : X.Reads r a := ⟨rv, hr, ha, hk⟩
  have hrb : X.Reads r b := ⟨rv, hr, hb, hk⟩
  have hwa : X.Writes (X.rf r a) a := hX.wellFormed.rf_write r a hra
  have hub : X.Writes (X.rf r b) b := hX.wellFormed.rf_write r b hrb
  have hwb : X.Writes (X.rf r a) b := hwa.of_footprint (hfoot a ha) hb
  have hua : X.Writes (X.rf r b) a := hub.of_footprint (hfoot b hb) ha
  obtain ⟨wv, hw, hwi⟩ := (hfoot a ha).indivisible hi
  obtain ⟨uv, hu, hui⟩ := (hfoot b hb).indivisible hi
  obtain heq | hmb : X.Sees r (X.rf r a) b :=
    hX.singleCopy.reads r _ rv wv a b hr hw hi hwi hra hwa hrb hwb (.inl rfl)
  · exact heq.symm
  obtain heq | hma : X.Sees r (X.rf r b) a :=
    hX.singleCopy.reads r _ rv uv b a hr hu hi hui hrb hub hra hua (.inl rfl)
  · exact heq
  have hma' : X.mo a (X.rf r a) (X.rf r b) := hX.singleCopy.writes _ _ wv uv b a hw hu hwi hui hwa hua hmb
  exact absurd (hX.wellFormed.mo_trans _ _ _ _ hma hma') (hX.wellFormed.mo_irrefl _ _)

/-- Settles O35, by happens-before, by the order of the fences, and by the one order of two writes on all their bytes. -/
theorem litmusOutcomes : Obligations.LitmusOutcomes := by
  refine ⟨?_, ?_, ?_⟩
  · intro X data release flag read acquire last a hX hdata hbefore hrel hseq hacq hafter hlast
    exact sees_of_passing hX hdata hbefore hrel hseq hacq hafter hlast
  · intro X w1 f1 r1 w2 f2 r2 a b hX hw1 hwf1 hf1 hfr1 hr1 hw2 hwf2 hf2 hfr2 hr2 hne
    exact sees_of_fenced hX hw1 hwf1 hf1 hfr1 hr1 hw2 hwf2 hf2 hfr2 hr2 hne
  · intro X r rv hX hr hi hk hfoot a ha b hb
    exact rf_eq_of_sameFootprint hX hr hi hk hfoot ha hb

end Sys2Proof.Machine.Execution
end

section
/-! The formats of encoded instructions (R154, R157): a word is the encoding of some fields exactly when each field of the word
reads as the one encoded. -/

namespace Sys2Proof

/-! ## Pieces of a word -/

/-- The type is not indexed, so that `simp` finds the lemma at a width written as a numeral. -/
theorem append_eq_iff {m n : Nat} (a : BitVec m) (b : BitVec n) (w : BitVec (m + n)) :
    @Eq (no_index (BitVec (m + n))) (a ++ b) w ↔ w.extractLsb' n m = a ∧ w.extractLsb' 0 n = b := by
  constructor
  · rintro rfl
    exact ⟨BitVec.extractLsb'_append_eq_left, BitVec.extractLsb'_append_eq_right⟩
  · rintro ⟨rfl, rfl⟩
    exact BitVec.extractLsb'_append_extractLsb'

theorem eq_append_iff {m n : Nat} (a : BitVec m) (b : BitVec n) (w : BitVec (m + n)) :
    @Eq (no_index (BitVec (m + n))) w (a ++ b) ↔ w.extractLsb' n m = a ∧ w.extractLsb' 0 n = b := by
  rw [eq_comm, append_eq_iff]

/-- A field is known by its two parts. -/
theorem extractLsb'_eq_iff {m n v s : Nat} (w : BitVec v) (a : BitVec (m + n)) :
    w.extractLsb' s (m + n) = a ↔
      w.extractLsb' (s + n) m = a.extractLsb' n m ∧ w.extractLsb' s n = a.extractLsb' 0 n := by
  rw [← BitVec.extractLsb'_append_extractLsb'_eq_extractLsb' rfl, append_eq_iff]
  simp only [eq_comm]

/-- A piece of a piece is a piece. -/
theorem extractLsb'_extractLsb' {v : Nat} (w : BitVec v) {s l s' l' : Nat} (h : s' + l' ≤ l) :
    (w.extractLsb' s l).extractLsb' s' l' = w.extractLsb' (s + s') l' := by
  ext i hi
  simp only [BitVec.getElem_extractLsb', BitVec.getLsbD_extractLsb', Nat.add_assoc,
    show s' + i < l by omega, decide_true, Bool.true_and]

theorem extractLsb'_one_eq_ofBool {v : Nat} (w : BitVec v) (k : Nat) (b : Bool) :
    w.extractLsb' k 1 = BitVec.ofBool b ↔ w.getLsbD k = b := by
  constructor
  · intro h
    simpa using congrArg (·.getLsbD 0) h
  · rintro rfl
    ext i hi
    obtain rfl : i = 0 := by omega
    simp

theorem extractLsb'_of_lowZero {n k : Nat} {v : BitVec n} (h : lowZero v k = true) : v.extractLsb' 0 k = 0#k :=
  beq_iff_eq.mp h

/-- A register 8 to 15 is known by its 3-bit field (R158). -/
theorem eq_rvcField_iff {r : BitVec 5} (h : isRvc r = true) (b : BitVec 3) : b = rvcField r ↔ rvcReg b = r := by
  decide +revert

/-! ## 32-bit formats (R154) -/

section Words

variable {op : BitVec 7} {rd rs1 rs2 rs3 : BitVec 5} {funct3 rm : BitVec 3} {w : BitVec 32}

theorem encR_eq_iff {funct7 : BitVec 7} : encR funct7 rs2 rs1 funct3 rd op = w ↔ funct7Field w = funct7 ∧
    rs2Field w = rs2 ∧ rs1Field w = rs1 ∧ funct3Field w = funct3 ∧ rdField w = rd ∧ w.extractLsb' 0 7 = op := by
  simp (disch := decide) only [encR, append_eq_iff, eq_append_iff, extractLsb'_extractLsb', and_assoc, funct7Field,
    rs2Field, rs1Field, funct3Field, rdField]

theorem encR4_eq_iff {fmt : BitVec 2} : encR4 rs3 fmt rs2 rs1 rm rd op = w ↔ rs3Field w = rs3 ∧
    w.extractLsb' 25 2 = fmt ∧ rs2Field w = rs2 ∧ rs1Field w = rs1 ∧ funct3Field w = rm ∧ rdField w = rd ∧
    w.extractLsb' 0 7 = op := by
  simp (disch := decide) only [encR4, append_eq_iff, eq_append_iff, extractLsb'_extractLsb', and_assoc, rs3Field,
    rs2Field, rs1Field, funct3Field, rdField]

theorem encAmo_eq_iff {funct5 : BitVec 5} {aq rl : Bool} : encAmo funct5 aq rl rs2 rs1 funct3 rd = w ↔
    w.extractLsb' 27 5 = funct5 ∧ w.getLsbD 26 = aq ∧ w.getLsbD 25 = rl ∧ rs2Field w = rs2 ∧ rs1Field w = rs1 ∧
    funct3Field w = funct3 ∧ rdField w = rd ∧ w.extractLsb' 0 7 = 0x2F#7 := by
  simp (disch := decide) only [encAmo, append_eq_iff, eq_append_iff, extractLsb'_extractLsb', and_assoc,
    extractLsb'_one_eq_ofBool, rs2Field, rs1Field, funct3Field, rdField]

theorem encI_eq_iff {imm : BitVec 12} : encI imm rs1 funct3 rd op = w ↔ immI w = imm ∧ rs1Field w = rs1 ∧
    funct3Field w = funct3 ∧ rdField w = rd ∧ w.extractLsb' 0 7 = op := by
  simp (disch := decide) only [encI, append_eq_iff, eq_append_iff, extractLsb'_extractLsb', and_assoc, immI, rs1Field,
    funct3Field, rdField]

theorem encShift64_eq_iff {funct6 shamt : BitVec 6} : encShift64 funct6 shamt rs1 funct3 rd = w ↔
    w.extractLsb' 26 6 = funct6 ∧ w.extractLsb' 20 6 = shamt ∧ rs1Field w = rs1 ∧ funct3Field w = funct3 ∧
    rdField w = rd ∧ w.extractLsb' 0 7 = 0x13#7 := by
  simp (disch := decide) only [encShift64, append_eq_iff, eq_append_iff, extractLsb'_extractLsb', and_assoc, rs1Field,
    funct3Field, rdField]

theorem encFence_eq_iff {fm pred succ : BitVec 4} : encFence fm pred succ rs1 rd = w ↔ w.extractLsb' 28 4 = fm ∧
    w.extractLsb' 24 4 = pred ∧ w.extractLsb' 20 4 = succ ∧ rs1Field w = rs1 ∧ funct3Field w = 0b000#3 ∧
    rdField w = rd ∧ w.extractLsb' 0 7 = 0x0F#7 := by
  simp (disch := decide) only [encFence, append_eq_iff, eq_append_iff, extractLsb'_extractLsb', and_assoc, rs1Field,
    funct3Field, rdField]

theorem encU_eq_iff {imm : BitVec 20} : encU imm rd op = w ↔ immU w = imm ∧ rdField w = rd ∧
    w.extractLsb' 0 7 = op := by
  simp (disch := decide) only [encU, append_eq_iff, eq_append_iff, extractLsb'_extractLsb', and_assoc, immU, rdField]

theorem encS_eq_iff {imm : BitVec 12} : encS imm rs2 rs1 funct3 op = w ↔ immS w = imm ∧ rs2Field w = rs2 ∧
    rs1Field w = rs1 ∧ funct3Field w = funct3 ∧ w.extractLsb' 0 7 = op := by
  simp (disch := decide) only [encS, immS, append_eq_iff, eq_append_iff, extractLsb'_extractLsb', and_assoc, rs2Field,
    rs1Field, funct3Field]
  grind

theorem encB_eq_iff {imm : BitVec 13} (h : lowZero imm 1 = true) : encB imm rs2 rs1 funct3 = w ↔ immB w = imm ∧
    rs2Field w = rs2 ∧ rs1Field w = rs1 ∧ funct3Field w = funct3 ∧ w.extractLsb' 0 7 = 0x63#7 := by
  simp (disch := decide) only [encB, immB, append_eq_iff, eq_append_iff, extractLsb'_extractLsb', and_assoc, rs2Field,
    rs1Field, funct3Field, extractLsb'_of_lowZero h]
  grind

theorem encJ_eq_iff {imm : BitVec 21} (h : lowZero imm 1 = true) : encJ imm rd = w ↔ immJ w = imm ∧ rdField w = rd ∧
    w.extractLsb' 0 7 = 0x6F#7 := by
  simp (disch := decide) only [encJ, immJ, append_eq_iff, eq_append_iff, extractLsb'_extractLsb', and_assoc, rdField,
    extractLsb'_of_lowZero h]
  grind

end Words

/-! ## 16-bit formats (R157, R170 to R182) -/

section Parcels

variable {op : BitVec 2} {rd rs1 rs2 r : BitVec 5} {funct3 : BitVec 3} {h : BitVec 16}

theorem encCr_eq_iff {funct4 : BitVec 4} : encCr funct4 rd rs2 = h ↔ h.extractLsb' 13 3 = funct4.extractLsb' 1 3 ∧
    h.extractLsb' 12 1 = funct4.extractLsb' 0 1 ∧ crdField h = rd ∧ crs2Field h = rs2 ∧ h.extractLsb' 0 2 = 0b10#2 := by
  simp (disch := decide) only [encCr, append_eq_iff, eq_append_iff, extractLsb'_extractLsb', crdField, crs2Field,
    extractLsb'_eq_iff (m := 3) (n := 1), and_assoc]

theorem encCi_eq_iff {imm : BitVec 6} : encCi funct3 imm rd op = h ↔ h.extractLsb' 13 3 = funct3 ∧ immCi h = imm ∧
    crdField h = rd ∧ h.extractLsb' 0 2 = op := by
  simp (disch := decide) only [encCi, immCi, append_eq_iff, eq_append_iff, extractLsb'_extractLsb', and_assoc, crdField]
  grind

theorem encClw_eq_iff {uimm : BitVec 7} (hu : lowZero uimm 2 = true) (h1 : isRvc rs1 = true) (hr : isRvc r = true) :
    encClw funct3 uimm rs1 r = h ↔ h.extractLsb' 13 3 = funct3 ∧ immClw h = uimm ∧ midReg h = rs1 ∧ lowReg h = r ∧
      h.extractLsb' 0 2 = 0b00#2 := by
  simp (disch := decide) only [encClw, immClw, append_eq_iff, eq_append_iff, extractLsb'_extractLsb', and_assoc, midReg,
    lowReg, ← eq_rvcField_iff h1, ← eq_rvcField_iff hr, extractLsb'_of_lowZero hu]
  grind

theorem encCld_eq_iff {uimm : BitVec 8} (hu : lowZero uimm 3 = true) (h1 : isRvc rs1 = true) (hr : isRvc r = true) :
    encCld funct3 uimm rs1 r = h ↔ h.extractLsb' 13 3 = funct3 ∧ immCld h = uimm ∧ midReg h = rs1 ∧ lowReg h = r ∧
      h.extractLsb' 0 2 = 0b00#2 := by
  simp (disch := decide) only [encCld, immCld, append_eq_iff, eq_append_iff, extractLsb'_extractLsb', and_assoc, midReg,
    lowReg, ← eq_rvcField_iff h1, ← eq_rvcField_iff hr, extractLsb'_of_lowZero hu]
  grind

theorem encCa_eq_iff {funct6 : BitVec 6} {funct2 : BitVec 2} (hd : isRvc rd = true) (h2 : isRvc rs2 = true) :
    encCa funct6 rd funct2 rs2 = h ↔ h.extractLsb' 13 3 = funct6.extractLsb' 3 3 ∧
      h.extractLsb' 12 1 ++ h.extractLsb' 5 2 = funct6.extractLsb' 2 1 ++ funct2 ∧
      h.extractLsb' 10 2 = funct6.extractLsb' 0 2 ∧ midReg h = rd ∧ lowReg h = rs2 ∧ h.extractLsb' 0 2 = 0b01#2 := by
  simp (disch := decide) only [encCa, append_eq_iff, eq_append_iff, extractLsb'_extractLsb', and_assoc, midReg, lowReg,
    ← eq_rvcField_iff hd, ← eq_rvcField_iff h2, extractLsb'_eq_iff (m := 3) (n := 3),
    extractLsb'_eq_iff (m := 1) (n := 2)]
  grind

theorem encCbAlu_eq_iff {imm : BitVec 6} {funct2 : BitVec 2} (hd : isRvc rd = true) :
    encCbAlu imm funct2 rd = h ↔ h.extractLsb' 13 3 = 0b100#3 ∧ h.extractLsb' 10 2 = funct2 ∧ immCi h = imm ∧
      midReg h = rd ∧ h.extractLsb' 0 2 = 0b01#2 := by
  simp (disch := decide) only [encCbAlu, immCi, append_eq_iff, eq_append_iff, extractLsb'_extractLsb', and_assoc, midReg,
    ← eq_rvcField_iff hd]
  grind

theorem encCb_eq_iff {offset : BitVec 9} (ho : lowZero offset 1 = true) (h1 : isRvc rs1 = true) :
    encCb funct3 offset rs1 = h ↔ h.extractLsb' 13 3 = funct3 ∧ immCb h = offset ∧ midReg h = rs1 ∧
      h.extractLsb' 0 2 = 0b01#2 := by
  simp (disch := decide) only [encCb, immCb, append_eq_iff, eq_append_iff, extractLsb'_extractLsb', and_assoc, midReg,
    ← eq_rvcField_iff h1, extractLsb'_of_lowZero ho]
  grind

theorem encCj_eq_iff {offset : BitVec 12} (ho : lowZero offset 1 = true) :
    encCj offset = h ↔ h.extractLsb' 13 3 = 0b101#3 ∧ immCj h = offset ∧ h.extractLsb' 0 2 = 0b01#2 := by
  simp (disch := decide) only [encCj, immCj, append_eq_iff, eq_append_iff, extractLsb'_extractLsb', and_assoc,
    extractLsb'_of_lowZero ho]
  grind

theorem encCldsp_eq_iff {uimm : BitVec 9} (hu : lowZero uimm 3 = true) :
    encCldsp funct3 uimm rd = h ↔ h.extractLsb' 13 3 = funct3 ∧ immCldsp h = uimm ∧ crdField h = rd ∧
      h.extractLsb' 0 2 = 0b10#2 := by
  simp (disch := decide) only [encCldsp, immCldsp, append_eq_iff, eq_append_iff, extractLsb'_extractLsb', and_assoc,
    crdField, extractLsb'_of_lowZero hu]
  grind

theorem encCsdsp_eq_iff {uimm : BitVec 9} (hu : lowZero uimm 3 = true) :
    encCsdsp funct3 uimm rs2 = h ↔ h.extractLsb' 13 3 = funct3 ∧ immCsdsp h = uimm ∧ crs2Field h = rs2 ∧
      h.extractLsb' 0 2 = 0b10#2 := by
  simp (disch := decide) only [encCsdsp, immCsdsp, append_eq_iff, eq_append_iff, extractLsb'_extractLsb', and_assoc,
    crs2Field, extractLsb'_of_lowZero hu]
  grind

/-! The five compressed instructions with a format of their own. -/

theorem encode_cAddi4spn_eq_iff {u : BitVec 10} (hu : lowZero u 2 = true) (hd : isRvc rd = true) :
    encode (.cAddi4spn rd u) = .parcel h ↔ h.extractLsb' 13 3 = 0b000#3 ∧ immCiw h = u ∧ lowReg h = rd ∧
      h.extractLsb' 0 2 = 0b00#2 := by
  simp (disch := decide) only [encode, Code.parcel.injEq, immCiw, append_eq_iff, eq_append_iff, extractLsb'_extractLsb',
    and_assoc, lowReg, ← eq_rvcField_iff hd, extractLsb'_of_lowZero hu]
  grind

theorem encode_cAddi16sp_eq_iff {v : BitVec 10} (hv : lowZero v 4 = true) :
    encode (.cAddi16sp v) = .parcel h ↔ h.extractLsb' 13 3 = 0b011#3 ∧ immCaddi16sp h = v ∧ crdField h = 2#5 ∧
      h.extractLsb' 0 2 = 0b01#2 := by
  simp (disch := decide) only [encode, Code.parcel.injEq, immCaddi16sp, append_eq_iff, eq_append_iff,
    extractLsb'_extractLsb', and_assoc, crdField, extractLsb'_of_lowZero hv]
  grind

theorem encode_cLui_eq_iff {v : BitVec 18} (hv : lowZero v 12 = true) :
    encode (.cLui rd v) = .parcel h ↔ h.extractLsb' 13 3 = 0b011#3 ∧ immClui h = v ∧ crdField h = rd ∧
      h.extractLsb' 0 2 = 0b01#2 := by
  simp (disch := decide) only [encode, Code.parcel.injEq, immClui, append_eq_iff, eq_append_iff, extractLsb'_extractLsb',
    and_assoc, crdField, extractLsb'_of_lowZero hv]
  grind

theorem encode_cLwsp_eq_iff {u : BitVec 8} (hu : lowZero u 2 = true) :
    encode (.cLwsp rd u) = .parcel h ↔ h.extractLsb' 13 3 = 0b010#3 ∧ immClwsp h = u ∧ crdField h = rd ∧
      h.extractLsb' 0 2 = 0b10#2 := by
  simp (disch := decide) only [encode, Code.parcel.injEq, immClwsp, append_eq_iff, eq_append_iff, extractLsb'_extractLsb',
    and_assoc, crdField, extractLsb'_of_lowZero hu]
  grind

theorem encode_cSwsp_eq_iff {u : BitVec 8} (hu : lowZero u 2 = true) :
    encode (.cSwsp rs2 u) = .parcel h ↔ h.extractLsb' 13 3 = 0b110#3 ∧ immCswsp h = u ∧ crs2Field h = rs2 ∧
      h.extractLsb' 0 2 = 0b10#2 := by
  simp (disch := decide) only [encode, Code.parcel.injEq, immCswsp, append_eq_iff, eq_append_iff, extractLsb'_extractLsb',
    and_assoc, crs2Field, extractLsb'_of_lowZero hu]
  grind

end Parcels

end Sys2Proof
end

section
/-! Bytes and their decoders (R150 to R153): bytes decode to an instruction exactly when they begin with a parcel or a word that
spells it. -/

namespace Sys2Proof

/-- The instruction that a parcel or a word spells by its table. -/
def Code.decode : Code → Option Instr
  | .parcel h => decode16 h
  | .word w => decode32 w

/-! ## The length decision (R150 to R152) -/

theorem low_bits_eq_iff {p : BitVec 16} : p.extractLsb' 0 2 = 0b11#2 ↔ p.toNat % 4 = 3 := by
  simp [← BitVec.toNat_inj]

/-- The length decision in numbers. -/
theorem parcelKind_eq (p : BitVec 16) : parcelKind p =
    if p.toNat % 4 ≠ 3 then .compressed else if p.toNat % 32 ≠ 31 then .standard else .long := by
  have hmid : p.extractLsb' 2 3 = 0b111#3 ↔ p.toNat / 4 % 8 = 7 := by
    simp [← BitVec.toNat_inj, Nat.shiftRight_eq_div_pow]
  have hlong : p.toNat % 4 = 3 → (p.toNat / 4 % 8 = 7 ↔ p.toNat % 32 = 31) := by omega
  simp only [parcelKind, ne_eq, low_bits_eq_iff, hmid]
  split
  · rfl
  · next h => simp only [hlong (not_not.mp h)]

theorem parcelKind_eq_compressed_iff {p : BitVec 16} : parcelKind p = .compressed ↔ p.toNat % 4 ≠ 3 := by
  rw [parcelKind_eq]
  split_ifs <;> simp [*]

theorem parcelKind_eq_standard_iff {p : BitVec 16} :
    parcelKind p = .standard ↔ p.toNat % 4 = 3 ∧ p.toNat % 32 ≠ 31 := by
  rw [parcelKind_eq]
  split_ifs <;> simp_all

theorem parcelKind_eq_long_iff {p : BitVec 16} : parcelKind p = .long ↔ p.toNat % 32 = 31 := by
  rw [parcelKind_eq]
  split_ifs <;> simp <;> omega

/-- Every row of the 16-bit table is a compressed parcel. -/
theorem parcelKind_of_decode16 {h : BitVec 16} {i : Instr} (hd : decode16 h = some i) :
    parcelKind h = .compressed := by
  rw [parcelKind_eq_compressed_iff, ne_eq, ← low_bits_eq_iff]
  intro h11
  simp [decode16, h11] at hd

theorem extractLsb'_setWidth_of_le {n m s l : Nat} (v : BitVec n) (hm : s + l ≤ m) :
    (v.setWidth m).extractLsb' s l = v.extractLsb' s l := by
  ext i hi
  simp [show s + i < m by omega]

/-- The major opcode decides the length of a word. -/
theorem parcelKind_of_opcode {w : BitVec 32} {op : BitVec 7} (h : w.extractLsb' 0 7 = op) :
    parcelKind (w.extractLsb' 0 16) = parcelKind (op.setWidth 16) := by
  subst h
  simp (disch := decide) only [parcelKind, extractLsb'_extractLsb', extractLsb'_setWidth_of_le]

/-- Every row of the 32-bit table has a standard first parcel. -/
theorem parcelKind_of_decode32 {w : BitVec 32} {i : Instr} (hd : decode32 w = some i) :
    parcelKind (w.extractLsb' 0 16) = .standard := by
  unfold decode32 at hd
  split at hd
  case h_22 => cases hd
  all_goals exact parcelKind_of_opcode ‹_›

/-! ## Bytes and codes (R102) -/

theorem Code.bytes_parcel (b0 b1 : Byte) : (Code.parcel (b1 ++ b0)).bytes = [b0, b1] := by
  simp (disch := decide) only [Code.bytes, BitVec.extractLsb'_append_eq_of_le,
    BitVec.extractLsb'_append_eq_of_add_le, BitVec.extractLsb'_eq_self, Nat.sub_self]

theorem Code.bytes_word (b0 b1 b2 b3 : Byte) : (Code.word (b3 ++ b2 ++ b1 ++ b0)).bytes = [b0, b1, b2, b3] := by
  simp (disch := decide) only [Code.bytes, BitVec.extractLsb'_append_eq_of_le,
    BitVec.extractLsb'_append_eq_of_add_le, BitVec.extractLsb'_eq_self, Nat.reduceSub]

theorem firstParcel_of_word (w : BitVec 32) : w.extractLsb' 8 8 ++ w.extractLsb' 0 8 = w.extractLsb' 0 16 :=
  BitVec.extractLsb'_append_extractLsb'_eq_extractLsb' rfl

/-- The bytes of a code that spells an instruction decode to it, whatever follows. -/
theorem Code.decode_bytes_append {c : Code} {i : Instr} (hc : c.decode = some i) (rest : List Byte) :
    Sys2Proof.decode (c.bytes ++ rest) = .instr i rest := by
  cases c with
  | parcel h =>
    have hd : decode16 h = some i := hc
    simp only [Code.bytes, List.cons_append, List.nil_append, Sys2Proof.decode, parcel_of_bytes,
      parcelKind_of_decode16 hd, hd]
  | word w =>
    have hd : decode32 w = some i := hc
    simp only [Code.bytes, List.cons_append, List.nil_append, Sys2Proof.decode, firstParcel_of_word, word_of_bytes,
      parcelKind_of_decode32 hd, hd]

/-- Bytes that decode to an instruction begin with a code that spells it. -/
theorem exists_code_of_decode {bytes rest : List Byte} {i : Instr} (h : decode bytes = .instr i rest) :
    ∃ c : Code, c.decode = some i ∧ bytes = c.bytes ++ rest := by
  unfold decode at h
  split at h
  next b0 b1 tail =>
    split at h
    · split at h
      next hd =>
        obtain ⟨rfl, rfl⟩ := Decoded.instr.inj h
        exact ⟨.parcel (b1 ++ b0), hd, by rw [Code.bytes_parcel]; rfl⟩
      · cases h
    · split at h
      next b2 b3 tail =>
        split at h
        next hd =>
          obtain ⟨rfl, rfl⟩ := Decoded.instr.inj h
          exact ⟨.word (b3 ++ b2 ++ b1 ++ b0), hd, by rw [Code.bytes_word]; rfl⟩
        · cases h
      · cases h
    · cases h
  · cases h

end Sys2Proof
end

section
/-! No bit of a word that decodes is ignored (R153, R168, R211): every row of the two tables spells an instruction whose encoding
is the word it was read from. -/

namespace Sys2Proof

/-- Every instruction an answer of a decoder holds is encoded as `c`. -/
def Spells (c : Code) (o : Option Instr) : Prop := ∀ i ∈ o, encode i = c

variable {c : Code}

@[simp] theorem spells_none : Spells c none := nofun

@[simp] theorem spells_some {i : Instr} : Spells c (some i) ↔ encode i = c := by simp [Spells]

theorem Rm.ofBits_eq_some_iff {b : BitVec 3} {rm : Rm} : Rm.ofBits b = some rm ↔ b = rm.toBits := by
  constructor
  · intro h
    unfold Rm.ofBits at h
    split at h <;> cases h <;> rfl
  · rintro rfl
    exact Rm.ofBits_toBits rm

theorem Csr.ofNumber_eq_some_iff {n : BitVec 12} {csr : Csr} : Csr.ofNumber n = some csr ↔ n = csr.number := by
  constructor
  · intro h
    unfold Csr.ofNumber at h
    split at h <;> cases h <;> rfl
  · rintro rfl
    exact Csr.ofNumber_number csr

@[simp] theorem spells_map_rm {b : BitVec 3} {f : Rm → Instr} :
    Spells c ((Rm.ofBits b).map f) ↔ ∀ rm, b = rm.toBits → encode (f rm) = c := by
  simp [Spells, Rm.ofBits_eq_some_iff]

@[simp] theorem spells_map_csr {n : BitVec 12} {f : Csr → Instr} :
    Spells c ((Csr.ofNumber n).map f) ↔ ∀ csr, n = csr.number → encode (f csr) = c := by
  simp [Spells, Csr.ofNumber_eq_some_iff]

/-! ## 32-bit words, by major opcode (R190 to R198) -/

section Words

variable {w : BitVec 32}

theorem spells_decodeLoad (hop : w.extractLsb' 0 7 = 0x03#7) : Spells (.word w) (decodeLoad w) := by
  unfold decodeLoad
  split <;> simp [encode, encI_eq_iff, *]

theorem spells_decodeLoadFp (hop : w.extractLsb' 0 7 = 0x07#7) : Spells (.word w) (decodeLoadFp w) := by
  unfold decodeLoadFp
  split <;> simp [encode, encI_eq_iff, *]

theorem spells_decodeMiscMem (hop : w.extractLsb' 0 7 = 0x0F#7) : Spells (.word w) (decodeMiscMem w) := by
  unfold decodeMiscMem
  split <;> simp [encode, encFence_eq_iff, encI_eq_iff, *]

theorem spells_decodeOpImm (hop : w.extractLsb' 0 7 = 0x13#7) : Spells (.word w) (decodeOpImm w) := by
  unfold decodeOpImm
  repeat' split
  all_goals simp [encode, encI_eq_iff, encShift64_eq_iff, *]

theorem spells_decodeOpImm32 (hop : w.extractLsb' 0 7 = 0x1B#7) : Spells (.word w) (decodeOpImm32 w) := by
  unfold decodeOpImm32
  repeat' split
  all_goals simp [encode, encI_eq_iff, encR_eq_iff, *]

theorem spells_decodeStore (hop : w.extractLsb' 0 7 = 0x23#7) : Spells (.word w) (decodeStore w) := by
  unfold decodeStore
  split <;> simp [encode, encS_eq_iff, *]

theorem spells_decodeStoreFp (hop : w.extractLsb' 0 7 = 0x27#7) : Spells (.word w) (decodeStoreFp w) := by
  unfold decodeStoreFp
  split <;> simp [encode, encS_eq_iff, *]

theorem spells_decodeAmo (hop : w.extractLsb' 0 7 = 0x2F#7) : Spells (.word w) (decodeAmo w) := by
  unfold decodeAmo
  repeat' split
  all_goals simp [encode, encAmo_eq_iff, *]

theorem spells_decodeOp (hop : w.extractLsb' 0 7 = 0x33#7) : Spells (.word w) (decodeOp w) := by
  unfold decodeOp
  repeat' split
  all_goals simp [encode, encR_eq_iff, *]

theorem spells_decodeOp32 (hop : w.extractLsb' 0 7 = 0x3B#7) : Spells (.word w) (decodeOp32 w) := by
  unfold decodeOp32
  repeat' split
  all_goals simp [encode, encR_eq_iff, *]

theorem spells_decodeMadd (hop : w.extractLsb' 0 7 = 0x43#7) : Spells (.word w) (decodeMadd w) := by
  unfold decodeMadd
  split <;> simp +contextual [encode, encR4_eq_iff, *]

theorem spells_decodeMsub (hop : w.extractLsb' 0 7 = 0x47#7) : Spells (.word w) (decodeMsub w) := by
  unfold decodeMsub
  split <;> simp +contextual [encode, encR4_eq_iff, *]

theorem spells_decodeNmsub (hop : w.extractLsb' 0 7 = 0x4B#7) : Spells (.word w) (decodeNmsub w) := by
  unfold decodeNmsub
  split <;> simp +contextual [encode, encR4_eq_iff, *]

theorem spells_decodeNmadd (hop : w.extractLsb' 0 7 = 0x4F#7) : Spells (.word w) (decodeNmadd w) := by
  unfold decodeNmadd
  split <;> simp +contextual [encode, encR4_eq_iff, *]

theorem spells_decodeOpFp (hop : w.extractLsb' 0 7 = 0x53#7) : Spells (.word w) (decodeOpFp w) := by
  unfold decodeOpFp
  repeat' split
  all_goals simp +contextual [encode, encR_eq_iff, *]

theorem spells_decodeBranch (hop : w.extractLsb' 0 7 = 0x63#7) : Spells (.word w) (decodeBranch w) := by
  unfold decodeBranch
  split <;> simp [encode, encB_eq_iff, *]

theorem spells_decodeJalr (hop : w.extractLsb' 0 7 = 0x67#7) : Spells (.word w) (decodeJalr w) := by
  unfold decodeJalr
  split <;> simp [encode, encI_eq_iff, *]

theorem spells_decodeSystem (hop : w.extractLsb' 0 7 = 0x73#7) : Spells (.word w) (decodeSystem w) := by
  unfold decodeSystem
  repeat' split
  all_goals simp +contextual [encode, encI_eq_iff, *]

theorem spells_decode32 (w : BitVec 32) : Spells (.word w) (decode32 w) := by
  unfold decode32
  split
  next h => exact spells_decodeLoad h
  next h => exact spells_decodeLoadFp h
  next h => exact spells_decodeMiscMem h
  next h => exact spells_decodeOpImm h
  next h => simp [encode, encU_eq_iff, h]
  next h => exact spells_decodeOpImm32 h
  next h => exact spells_decodeStore h
  next h => exact spells_decodeStoreFp h
  next h => exact spells_decodeAmo h
  next h => exact spells_decodeOp h
  next h => simp [encode, encU_eq_iff, h]
  next h => exact spells_decodeOp32 h
  next h => exact spells_decodeMadd h
  next h => exact spells_decodeMsub h
  next h => exact spells_decodeNmsub h
  next h => exact spells_decodeNmadd h
  next h => exact spells_decodeOpFp h
  next h => exact spells_decodeBranch h
  next h => exact spells_decodeJalr h
  next h => simp [encode, encJ_eq_iff, h]
  next h => exact spells_decodeSystem h
  · exact spells_none

end Words

/-! ## 16-bit words, by quadrant (R199 to R201) -/

section Parcels

variable {h : BitVec 16}

theorem spells_decodeQ0 (hq : h.extractLsb' 0 2 = 0b00#2) : Spells (.parcel h) (decodeQ0 h) := by
  unfold decodeQ0
  split
  case h_1 => split <;> simp [encode_cAddi4spn_eq_iff, *]
  all_goals simp [encode, encCld_eq_iff, encClw_eq_iff, *]

theorem eq_three_of_ne (b : BitVec 2) (h0 : b ≠ 0b00#2) (h1 : b ≠ 0b01#2) (h2 : b ≠ 0b10#2) : b = 0b11#2 := by
  decide +revert

theorem spells_decodeCa (hq : h.extractLsb' 0 2 = 0b01#2) (h3 : h.extractLsb' 13 3 = 0b100#3)
    (h2 : h.extractLsb' 10 2 = 0b11#2) : Spells (.parcel h) (decodeCa h) := by
  unfold decodeCa
  split <;> simp [encode, encCa_eq_iff, *]

theorem spells_decodeCbAlu (hq : h.extractLsb' 0 2 = 0b01#2) (h3 : h.extractLsb' 13 3 = 0b100#3) :
    Spells (.parcel h) (decodeCbAlu h) := by
  unfold decodeCbAlu
  split
  case h_4 h0 h1 h2 => exact spells_decodeCa hq h3 (eq_three_of_ne _ h0 h1 h2)
  all_goals simp [encode, encCbAlu_eq_iff, *]

theorem spells_decodeQ1 (hq : h.extractLsb' 0 2 = 0b01#2) : Spells (.parcel h) (decodeQ1 h) := by
  unfold decodeQ1
  split
  case h_1 | h_2 => split <;> simp [encode, encCi_eq_iff, *]
  case h_4 =>
    split
    · split <;> simp [encode_cAddi16sp_eq_iff, *]
    · split <;> simp [encode_cLui_eq_iff, *]
  case h_5 h3 => exact spells_decodeCbAlu hq h3
  all_goals simp [encode, encCi_eq_iff, encCb_eq_iff, encCj_eq_iff, *]

theorem spells_decodeCr (hq : h.extractLsb' 0 2 = 0b10#2) (h3 : h.extractLsb' 13 3 = 0b100#3) :
    Spells (.parcel h) (decodeCr h) := by
  unfold decodeCr
  obtain h12 | h12 := BitVec.eq_zero_or_eq_one (h.extractLsb' 12 1)
  all_goals
    rw [h12]
    repeat' split
    all_goals simp_all [encode, encCr_eq_iff]

theorem spells_decodeQ2 (hq : h.extractLsb' 0 2 = 0b10#2) : Spells (.parcel h) (decodeQ2 h) := by
  unfold decodeQ2
  split
  case h_3 => split <;> simp [encode_cLwsp_eq_iff, *]
  case h_4 => split <;> simp [encode, encCldsp_eq_iff, *]
  case h_5 h3 => exact spells_decodeCr hq h3
  case h_7 => simp [encode_cSwsp_eq_iff, *]
  all_goals simp [encode, encCi_eq_iff, encCldsp_eq_iff, encCsdsp_eq_iff, *]

theorem spells_decode16 (h : BitVec 16) : Spells (.parcel h) (decode16 h) := by
  unfold decode16
  split
  next hq => exact spells_decodeQ0 hq
  next hq => exact spells_decodeQ1 hq
  next hq => exact spells_decodeQ2 hq
  · exact spells_none

end Parcels

/-- What a code spells is encoded as that code. -/
theorem encode_of_decode {i : Instr} (h : c.decode = some i) : encode i = c := by
  cases c with
  | parcel p => exact spells_decode16 p i h
  | word w => exact spells_decode32 w i h

/-- What a code spells is well-formed. -/
theorem wf_of_decode {i : Instr} (h : c.decode = some i) : i.wf = true := by
  cases c with
  | parcel p => exact onlyWf_decode16 p i h
  | word w => exact onlyWf_decode32 w i h

/-- Settles O2: bytes that decode begin with a code that spells the instruction, and each row of the tables spells its own
encoding. -/
theorem encodeOfDecode : Obligations.EncodeOfDecode := by
  intro bytes rest i h
  obtain ⟨c, hc, hbytes⟩ := exists_code_of_decode h
  exact ⟨wf_of_decode hc, (encode_of_decode hc).symm ▸ hbytes⟩

end Sys2Proof
end

section
/-! Decoding an encoding (R153 to R201): the table of its quadrant or its major opcode reads every well-formed instruction back. -/

namespace Sys2Proof

variable {i : Instr}

/-- The parcel of a well-formed compressed instruction spells it (R199 to R201). -/
theorem decode16_of_encode {h : BitVec 16} (hwf : i.wf = true) (he : encode i = .parcel h) : decode16 h = some i := by
  cases i with
  -- quadrant 0
  | cAddi4spn =>
    simp only [Instr.wf, Bool.and_eq_true, bne_iff_ne] at hwf
    simp only [encode_cAddi4spn_eq_iff, hwf] at he
    simp [decode16, decodeQ0, he, hwf]
  | cLw | cSw =>
    simp only [Instr.wf, Bool.and_eq_true] at hwf
    simp only [encode, Code.parcel.injEq, encClw_eq_iff, hwf] at he
    simp [decode16, decodeQ0, he]
  | cFld | cLd | cFsd | cSd =>
    simp only [Instr.wf, Bool.and_eq_true] at hwf
    simp only [encode, Code.parcel.injEq, encCld_eq_iff, hwf] at he
    simp [decode16, decodeQ0, he]
  -- quadrant 1
  | cNop | cAddi | cAddiw | cLi =>
    simp only [Instr.wf, bne_iff_ne] at hwf
    simp only [encode, Code.parcel.injEq, encCi_eq_iff] at he
    simp [decode16, decodeQ1, he, hwf]
  | cAddi16sp =>
    simp only [Instr.wf, Bool.and_eq_true, bne_iff_ne] at hwf
    simp only [encode_cAddi16sp_eq_iff, hwf] at he
    simp [decode16, decodeQ1, he, hwf]
  | cLui =>
    simp only [Instr.wf, Bool.and_eq_true, bne_iff_ne] at hwf
    simp only [encode_cLui_eq_iff, hwf] at he
    simp [decode16, decodeQ1, he, hwf]
  | cSrli | cSrai | cAndi =>
    simp only [encode, Code.parcel.injEq, encCbAlu_eq_iff (show isRvc _ = true from hwf)] at he
    simp [decode16, decodeQ1, decodeCbAlu, he]
  | cSub | cXor | cOr | cAnd | cSubw | cAddw =>
    simp only [Instr.wf, Bool.and_eq_true] at hwf
    simp only [encode, Code.parcel.injEq, encCa_eq_iff, hwf] at he
    simp [decode16, decodeQ1, decodeCbAlu, decodeCa, he]
  | cJ =>
    simp only [encode, Code.parcel.injEq, encCj_eq_iff (show lowZero _ 1 = true from hwf)] at he
    simp [decode16, decodeQ1, he]
  | cBeqz | cBnez =>
    simp only [Instr.wf, Bool.and_eq_true] at hwf
    simp only [encode, Code.parcel.injEq, encCb_eq_iff, hwf] at he
    simp [decode16, decodeQ1, he]
  -- quadrant 2
  | cSlli =>
    simp only [encode, Code.parcel.injEq, encCi_eq_iff] at he
    simp [decode16, decodeQ2, he]
  | cFldsp | cLdsp =>
    simp only [Instr.wf, Bool.and_eq_true, bne_iff_ne] at hwf
    simp only [encode, Code.parcel.injEq, encCldsp_eq_iff, hwf] at he
    simp [decode16, decodeQ2, he, hwf]
  | cLwsp =>
    simp only [Instr.wf, Bool.and_eq_true, bne_iff_ne] at hwf
    simp only [encode_cLwsp_eq_iff, hwf] at he
    simp [decode16, decodeQ2, he, hwf]
  | cJr | cMv | cEbreak | cJalr | cAdd =>
    simp only [Instr.wf, bne_iff_ne] at hwf
    simp only [encode, Code.parcel.injEq, encCr_eq_iff] at he
    simp [decode16, decodeQ2, decodeCr, he, hwf]
  | cFsdsp | cSdsp =>
    simp only [Instr.wf] at hwf
    simp only [encode, Code.parcel.injEq, encCsdsp_eq_iff, hwf] at he
    simp [decode16, decodeQ2, he]
  | cSwsp =>
    simp only [Instr.wf] at hwf
    simp only [encode_cSwsp_eq_iff, hwf] at he
    simp [decode16, decodeQ2, he]
  -- a 32-bit instruction is no parcel
  | _ => cases he

@[simp] theorem aq_encAmo (funct5 : BitVec 5) (aq rl : Bool) (rs2 rs1 : BitVec 5) (funct3 : BitVec 3) (rd : BitVec 5) :
    (encAmo funct5 aq rl rs2 rs1 funct3 rd)[26] = aq := by
  obtain ⟨-, haq, -⟩ := encAmo_eq_iff.mp (Eq.refl (encAmo funct5 aq rl rs2 rs1 funct3 rd))
  exact haq

@[simp] theorem rl_encAmo (funct5 : BitVec 5) (aq rl : Bool) (rs2 rs1 : BitVec 5) (funct3 : BitVec 3) (rd : BitVec 5) :
    (encAmo funct5 aq rl rs2 rs1 funct3 rd)[25] = rl := by
  obtain ⟨-, -, hrl, -⟩ := encAmo_eq_iff.mp (Eq.refl (encAmo funct5 aq rl rs2 rs1 funct3 rd))
  exact hrl

/-- The code of a well-formed instruction spells it (R190 to R201). -/
theorem decode_encode (hwf : i.wf = true) : (encode i).decode = some i := by
  cases i with
  | lui | auipc => simp [encode, Code.decode, decode32]
  | jal _ offset => simp [encode, Code.decode, decode32, immJ_encJ offset _ hwf]
  | jalr => simp [encode, Code.decode, decode32, decodeJalr]
  | beq _ _ offset | bne _ _ offset | blt _ _ offset | bge _ _ offset | bltu _ _ offset | bgeu _ _ offset =>
    simp [encode, Code.decode, decode32, decodeBranch, immB_encB offset _ _ _ hwf]
  | lb | lh | lw | ld | lbu | lhu | lwu => simp [encode, Code.decode, decode32, decodeLoad]
  | sb | sh | sw | sd => simp [encode, Code.decode, decode32, decodeStore]
  | addi | slti | sltiu | xori | ori | andi | slli | srli | srai => simp [encode, Code.decode, decode32, decodeOpImm]
  | addiw | slliw | srliw | sraiw => simp [encode, Code.decode, decode32, decodeOpImm32]
  | add | sub | sll | slt | sltu | xor | srl | sra | or | and | mul | mulh | mulhsu | mulhu | div | divu | rem | remu =>
    simp [encode, Code.decode, decode32, decodeOp]
  | addw | subw | sllw | srlw | sraw | mulw | divw | divuw | remw | remuw =>
    simp [encode, Code.decode, decode32, decodeOp32]
  | fence | fenceI => simp [encode, Code.decode, decode32, decodeMiscMem]
  | ecall | ebreak => rfl
  | csrrw | csrrs | csrrc | csrrwi | csrrsi | csrrci => simp [encode, Code.decode, decode32, decodeSystem]
  | lrW | scW | lrD | scD
  | amoswapW | amoaddW | amoxorW | amoandW | amoorW | amominW | amomaxW | amominuW | amomaxuW
  | amoswapD | amoaddD | amoxorD | amoandD | amoorD | amominD | amomaxD | amominuD | amomaxuD =>
    simp [encode, Code.decode, decode32, decodeAmo]
  | flw | fld => simp [encode, Code.decode, decode32, decodeLoadFp]
  | fsw | fsd => simp [encode, Code.decode, decode32, decodeStoreFp]
  | fmaddS | fmaddD => simp [encode, Code.decode, decode32, decodeMadd]
  | fmsubS | fmsubD => simp [encode, Code.decode, decode32, decodeMsub]
  | fnmsubS | fnmsubD => simp [encode, Code.decode, decode32, decodeNmsub]
  | fnmaddS | fnmaddD => simp [encode, Code.decode, decode32, decodeNmadd]
  | faddS | fsubS | fmulS | fdivS | fsqrtS | fsgnjS | fsgnjnS | fsgnjxS | fminS | fmaxS
  | fcvtWS | fcvtWUS | fcvtLS | fcvtLUS | fmvXW | feqS | fltS | fleS | fclassS
  | fcvtSW | fcvtSWU | fcvtSL | fcvtSLU | fmvWX
  | faddD | fsubD | fmulD | fdivD | fsqrtD | fsgnjD | fsgnjnD | fsgnjxD | fminD | fmaxD | fcvtSD | fcvtDS
  | feqD | fltD | fleD | fclassD | fcvtWD | fcvtWUD | fcvtLD | fcvtLUD | fmvXD
  | fcvtDW | fcvtDWU | fcvtDL | fcvtDLU | fmvDX =>
    simp [encode, Code.decode, decode32, decodeOpFp]
  -- compressed instructions
  | _ => exact decode16_of_encode hwf rfl

/-- Settles O1: the bytes of a code that spells an instruction decode to it, and the code of a well-formed one does. -/
theorem decodeOfEncode : Obligations.DecodeOfEncode :=
  fun _ rest hwf => Code.decode_bytes_append (decode_encode hwf) rest

end Sys2Proof
end

section
/-! The length decision over bytes (R150 to R152), and the words that no row of the tables spells (R190, R198, R212, R215, R403,
R659). -/

namespace Sys2Proof

/-! ## Length -/

/-- The code of an instruction is as long as the instruction (R150). -/
theorem length_bytes_encode (i : Instr) : (encode i).bytes.length = i.len := by
  cases i <;> rfl

/-- The low bits of a parcel are those of its first byte (R102). -/
theorem toNat_parcel_mod (b0 b1 : Byte) {k : Nat} (hk : k ∣ 256) : (b1 ++ b0).toNat % k = b0.toNat % k := by
  have hb : (b1 ++ b0).toNat = 256 * b1.toNat + b0.toNat := by
    rw [BitVec.toNat_append, ← Nat.shiftLeft_add_eq_or_of_lt b0.isLt, Nat.shiftLeft_eq, Nat.mul_comm]
  obtain ⟨m, hm⟩ := hk
  rw [hb, hm, Nat.mul_assoc, Nat.mul_add_mod]

/-- What decodes is 16 bits wide with a compressed first parcel, or 32 bits wide with a standard one. -/
theorem length_of_decode {b0 b1 : Byte} {rest r : List Byte} {i : Instr} (h : decode (b0 :: b1 :: rest) = .instr i r) :
    (parcelKind (b1 ++ b0) = .compressed ∧ i.len = 2) ∨ (parcelKind (b1 ++ b0) = .standard ∧ i.len = 4) := by
  obtain ⟨c, hc, hbytes⟩ := exists_code_of_decode h
  have hlen : i.len = c.bytes.length := by rw [← length_bytes_encode, encode_of_decode hc]
  cases c with
  | parcel p =>
    obtain ⟨rfl, rfl, -⟩ : b0 = p.extractLsb' 0 8 ∧ b1 = p.extractLsb' 8 8 ∧ rest = r := by
      simpa [Code.bytes] using hbytes
    rw [parcel_of_bytes]
    exact .inl ⟨parcelKind_of_decode16 hc, hlen⟩
  | word w =>
    obtain ⟨rfl, rfl, -⟩ : b0 = w.extractLsb' 0 8 ∧ b1 = w.extractLsb' 8 8 ∧ _ := by
      simpa only [Code.bytes, List.cons_append, List.cons.injEq] using hbytes
    rw [firstParcel_of_word]
    exact .inr ⟨parcelKind_of_decode32 hc, hlen⟩

theorem decode_of_long {b0 b1 : Byte} (h : parcelKind (b1 ++ b0) = .long) (rest : List Byte) :
    decode (b0 :: b1 :: rest) = .reject (.longEncoding ((b1 ++ b0).setWidth 32)) := by
  simp only [decode, h]

/-- A parcel zero-extended to a word (R815). -/
theorem setWidth_parcel (b0 b1 : Byte) : (b1 ++ b0).setWidth 32 = 0#16 ++ b1 ++ b0 := by
  rw [BitVec.append_assoc]
  exact BitVec.setWidth_eq_append (by decide)

/-- Settles O4: the kind of the first parcel, in numbers, is the length of what decodes. -/
theorem lengthByLowBits : Obligations.LengthByLowBits := by
  intro b0 b1 rest
  have h4 := toNat_parcel_mod b0 b1 (k := 4) (by decide)
  have h32 := toNat_parcel_mod b0 b1 (k := 32) (by decide)
  refine ⟨fun i r h => ?_, fun h => ?_⟩
  · rcases length_of_decode h with ⟨hk, hlen⟩ | ⟨hk, hlen⟩
    · rw [parcelKind_eq_compressed_iff, h4] at hk
      omega
    · rw [parcelKind_eq_standard_iff, h4, h32] at hk
      omega
  · rw [decode_of_long (parcelKind_eq_long_iff.mpr (h32.trans h)), setWidth_parcel]

/-! ## Reserved words -/

/-- The values 5 and 6 of bits 14:12 are no rounding mode (R403). -/
theorem Rm.ofBits_reserved {b : BitVec 3} (h : b = 5#3 ∨ b = 6#3) : Rm.ofBits b = none := by
  rcases h with rfl | rfl <;> rfl

/-- Every number but 1 to 3 is no CSR (R659). -/
theorem Csr.ofNumber_reserved {n : BitVec 12} (h : ¬ (1 ≤ n.toNat ∧ n.toNat ≤ 3)) : Csr.ofNumber n = none := by
  cases hn : Csr.ofNumber n with
  | none => rfl
  | some csr =>
    obtain rfl := Csr.ofNumber_eq_some_iff.mp hn
    cases csr <;> exact absurd (by decide) h

/-- A piece of a field of zeros is zeros. -/
theorem extractLsb'_eq_zero_of_part {v s l s' l' : Nat} {w : BitVec v} (h : w.extractLsb' s l = 0#l)
    (hs : s ≤ s') (hl : s' + l' ≤ s + l) : w.extractLsb' s' l' = 0#l' := by
  obtain ⟨k, rfl⟩ := Nat.exists_eq_add_of_le hs
  rw [← extractLsb'_extractLsb' w (by omega : k + l' ≤ l), h, BitVec.extractLsb'_zero]

/-- Quadrant 0: funct3 100, and C.ADDI4SPN with a zero immediate, are reserved (R215). -/
theorem decodeQ0_reserved {h : BitVec 16}
    (hr : h.extractLsb' 13 3 = 0b100#3 ∨ (h.extractLsb' 13 3 = 0b000#3 ∧ h.extractLsb' 5 8 = 0#8)) :
    decodeQ0 h = none := by
  rcases hr with h3 | ⟨h3, h8⟩
  · simp [decodeQ0, h3]
  · have himm : immCiw h = 0#10 := by
      simp (disch := decide) only [immCiw, extractLsb'_eq_zero_of_part h8]
      rfl
    simp [decodeQ0, h3, himm]

/-- Two values of `{h[12], h[6:5]}` are reserved (R200, R215). -/
theorem decodeCa_reserved {h : BitVec 16} (h12 : h.extractLsb' 12 1 = 1#1) (h6 : h.extractLsb' 6 1 = 1#1) :
    decodeCa h = none := by
  have h5 : h.extractLsb' 5 2 = h.extractLsb' 6 1 ++ h.extractLsb' 5 1 :=
    (BitVec.extractLsb'_append_extractLsb'_eq_extractLsb' (len₁ := 1) (len₂ := 1) rfl).symm
  unfold decodeCa
  rw [h12, h5, h6]
  obtain h0 | h1 := BitVec.eq_zero_or_eq_one (h.extractLsb' 5 1)
  · rw [h0]
    rfl
  · rw [h1]
    rfl

/-- Quadrant 1: C.ADDIW with rd = x0, a zero immediate of C.ADDI16SP or C.LUI, and two of the CA group, are reserved (R215). -/
theorem decodeQ1_reserved {h : BitVec 16} (hr : (h.extractLsb' 13 3 = 0b001#3 ∧ h.extractLsb' 7 5 = 0#5) ∨
      (h.extractLsb' 13 3 = 0b011#3 ∧ h.extractLsb' 12 1 = 0#1 ∧ h.extractLsb' 2 5 = 0#5) ∨
      (h.extractLsb' 10 6 = 0b100111#6 ∧ h.extractLsb' 6 1 = 1#1)) : decodeQ1 h = none := by
  rcases hr with ⟨h3, hrd⟩ | ⟨h3, h12, h2⟩ | ⟨h6, hb⟩
  · simp [decodeQ1, h3, crdField, hrd]
  · have himm : immClui h = 0#18 := by simp only [immClui, h12, h2]; rfl
    have himm' : immCaddi16sp h = 0#10 := by
      simp (disch := decide) only [immCaddi16sp, h12, extractLsb'_eq_zero_of_part h2]
      rfl
    simp [decodeQ1, h3, himm, himm']
  · obtain ⟨h3, h10⟩ := (extractLsb'_eq_iff (m := 3) (n := 3) h _).mp h6
    obtain ⟨h12, h10⟩ := (extractLsb'_eq_iff (m := 1) (n := 2) h _).mp h10
    simp [decodeQ1, decodeCbAlu, h3, h10, decodeCa_reserved h12 hb]

/-- Quadrant 2: C.LWSP and C.LDSP with rd = x0, and C.JR with rs1 = x0, are reserved (R215). -/
theorem decodeQ2_reserved {h : BitVec 16} (hrd : h.extractLsb' 7 5 = 0#5) (hr : h.extractLsb' 13 3 = 0b010#3 ∨
      h.extractLsb' 13 3 = 0b011#3 ∨ (h.extractLsb' 12 4 = 0b1000#4 ∧ h.extractLsb' 2 5 = 0#5)) :
    decodeQ2 h = none := by
  rcases hr with h3 | h3 | ⟨h4, hrs2⟩
  · simp [decodeQ2, h3, crdField, hrd]
  · simp [decodeQ2, h3, crdField, hrd]
  · rw [extractLsb'_eq_iff (m := 3) (n := 1)] at h4
    simp [decodeQ2, decodeCr, h4, crdField, hrd, crs2Field, hrs2]

/-- The fused operations have an rm in bits 14:12 (R403). -/
theorem decodeFused_reserved {w : BitVec 32} (hr : funct3Field w = 5#3 ∨ funct3Field w = 6#3) :
    decodeMadd w = none ∧ decodeMsub w = none ∧ decodeNmsub w = none ∧ decodeNmadd w = none := by
  unfold decodeMadd decodeMsub decodeNmsub decodeNmadd
  rw [Rm.ofBits_reserved hr]
  split <;> exact ⟨rfl, rfl, rfl, rfl⟩

/-- Bits 14:12 of an OP-FP word are an rm or a funct3 of at most 2 (R198, R403). -/
theorem decodeOpFp_reserved {w : BitVec 32} (hr : funct3Field w = 5#3 ∨ funct3Field w = 6#3) :
    decodeOpFp w = none := by
  have hrm := Rm.ofBits_reserved hr
  unfold decodeOpFp
  rw [hrm]
  repeat' split
  all_goals simp_all

/-- A SYSTEM word with a funct3 names a CSR (R195, R659). -/
theorem decodeSystem_reserved {w : BitVec 32} (h3 : funct3Field w ≠ 0#3)
    (hn : ¬ (1 ≤ (immI w).toNat ∧ (immI w).toNat ≤ 3)) : decodeSystem w = none := by
  unfold decodeSystem
  split
  · contradiction
  all_goals simp [Csr.ofNumber_reserved hn]

/-- Settles O5, by the decoder of each quadrant and of each major opcode. -/
theorem reservedWordsRejected : Obligations.ReservedWordsRejected := by
  refine ⟨fun h hq hr => ?_, fun h hq hr => ?_, fun h hq hrd hr => ?_, fun w hop => ?_, fun w hop hr => ?_,
    fun w hop h3 hn => ?_⟩
  · simp only [decode16, hq, decodeQ0_reserved hr]
  · simp only [decode16, hq, decodeQ1_reserved hr]
  · simp only [decode16, hq, decodeQ2_reserved hrd hr]
  · simp only [List.mem_cons, List.not_mem_nil, or_false] at hop
    rcases hop with h | h | h | h | h | h | h <;> simp [decode32, h]
  · simp only [List.mem_cons, List.not_mem_nil, or_false] at hop
    obtain ⟨hmadd, hmsub, hnmsub, hnmadd⟩ := decodeFused_reserved hr
    rcases hop with h | h | h | h | h
    · simp only [decode32, h, hmadd]
    · simp only [decode32, h, hmsub]
    · simp only [decode32, h, hnmsub]
    · simp only [decode32, h, hnmadd]
    · simp only [decode32, h, decodeOpFp_reserved hr]
  · simp only [decode32, hop, decodeSystem_reserved h3 hn]

end Sys2Proof
end

section
/-! The stops of a step before it executes (60_exceptions.md R802 items 1 to 5): what the front end answers in each case of the
order of priority. -/

namespace Sys2Proof.Machine

open Sys2Proof.Spec

variable {s : State}

theorem stops_of_fetchInstr {e : StopEvent} (hs : s.status = .running) (hf : fetchInstr s = .stop e) :
    ∃ t, step s = .next t ∧ StoppedAs s t e :=
  step_of_stop hs hf ▸ raise_stoppedAs e s

/-! ## The parcels -/

theorem fetchParcel_of_unmapped {a : Word} (h : ¬ MappedAll s a 2 .fetch) : fetchParcel s a = none := by
  have hne : failingBytes s.params [.fetch] a 2 ≠ [] := by
    simpa [failingBytes, missingKind, MappedAll] using h
  simp [fetchParcel, hne]

theorem fetchInstr_of_odd (hpc : s.pc.toNat % 2 = 1) : fetchInstr s = .stop (.misalignedFetch s.pc) := by
  have hodd : s.pc.getLsbD 0 = true := by simp [BitVec.getLsbD, Nat.testBit_zero, hpc]
  simp only [fetchInstr, hodd, if_true]

theorem fetchInstr_of_unmapped (hpc : s.pc.getLsbD 0 = false) (hp0 : fetchParcel s s.pc = none) :
    fetchInstr s = .stop (.memoryFault s.pc .fetch) := by
  simp only [fetchInstr, hpc, hp0, Bool.false_eq_true, if_false]

theorem fetchInstr_long {p0 : BitVec 16} (hpc : s.pc.getLsbD 0 = false) (hp0 : fetchParcel s s.pc = some p0)
    (hk : parcelKind p0 = .long) : fetchInstr s = .stop (.decodeFailure (p0.setWidth 32)) := by
  simp only [fetchInstr, hpc, hp0, hk, Bool.false_eq_true, if_false]

theorem fetchInstr_of_unmapped_second {p0 : BitVec 16} (hpc : s.pc.getLsbD 0 = false)
    (hp0 : fetchParcel s s.pc = some p0) (hk : parcelKind p0 = .standard)
    (hp1 : fetchParcel s (s.pc + 2#64) = none) : fetchInstr s = .stop (.memoryFault (s.pc + 2#64) .fetch) := by
  simp only [fetchInstr, hpc, hp0, hk, hp1, Bool.false_eq_true, if_false]

theorem accept_of_withheld {i : Instr} {o : Option Instr} (w : BitVec 32) (ho : i ∈ o)
    (hi : i.mnemonic ∈ s.params.withheld) : accept s w o = .stop (.decodeFailure w) := by
  obtain rfl : o = some i := ho
  simp [accept, hi]

/-! ## The order of priority -/

/-- Settles O7: one answer of the front end for each clause, taken as a stop event by the step. -/
theorem fetchStops : Obligations.FetchStops := by
  intro s hs b p0 w stops
  have stop {e : StopEvent} (hf : fetchInstr s = .stop e) : stops e := stops_of_fetchInstr hs hf
  refine ⟨fun hpc => stop (fetchInstr_of_odd hpc), fun hpc hm => ?_, fun hpc hm => ?_⟩
  all_goals have heven : s.pc.getLsbD 0 = false := by simp [BitVec.getLsbD, Nat.testBit_zero, hpc]
  · exact stop (fetchInstr_of_unmapped heven (fetchParcel_of_unmapped hm))
  have hp0 : fetchParcel s s.pc = some p0 := by
    simpa only [p0, b, BitVec.add_zero] using fetchParcel_of_mapped hm
  refine ⟨fun hlong => ?_, fun hk i hi hw => ?_, fun hk hd => ?_, fun hk hnl hm2 => ?_, fun hk hnl hm2 => ?_⟩
  · exact stop (fetchInstr_long heven hp0 (parcelKind_eq_long_iff.mpr hlong))
  · rw [← parcelKind_eq_compressed_iff] at hk
    exact stop ((fetchInstr_compressed heven hp0 hk).trans (accept_of_withheld _ hi hw))
  · rw [← parcelKind_eq_compressed_iff] at hk
    exact stop ((fetchInstr_compressed heven hp0 hk).trans (hd ▸ rfl))
  · have hstd := parcelKind_eq_standard_iff.mpr ⟨hk, hnl⟩
    exact stop (fetchInstr_of_unmapped_second heven hp0 hstd (fetchParcel_of_unmapped hm2))
  · have hstd := parcelKind_eq_standard_iff.mpr ⟨hk, hnl⟩
    have hp1 : fetchParcel s (s.pc + 2#64) = some (b 3 ++ b 2) := by
      simpa [b, BitVec.add_assoc] using fetchParcel_of_mapped hm2
    have hfetch : fetchInstr s = accept s w (decode32 w) := by
      rw [fetchInstr_standard heven hp0 hstd hp1, word_of_parcels]
    exact ⟨fun hd => stop (hfetch.trans (hd ▸ rfl)), fun i hi hw => stop (hfetch.trans (accept_of_withheld _ hi hw))⟩

end Sys2Proof.Machine
end

section
/-! The integer ALU in numbers (40_integer.md): an operation that completes writes its result to rd and moves the pc (R304), and
each result is the wrapped value of an operation on integers or natural numbers (R300 to R302). -/

namespace Sys2Proof.Machine

open Sys2Proof.Spec

variable {s : State} {i : Instr}

/-- An instruction that completes with an integer result writes it to rd, moves the pc and leaves the rest (R303, R304). -/
theorem setsX_of_retireX {len : Nat} {rd : XReg} {v w : Word} (hi : exec i s = retireX len rd v s) (hv : v = w) :
    SetsX i s (s.nextPc len) rd w := by
  subst hv
  exact ⟨_, hi.trans (retireX_next len rd v s), rfl, xIs_wx s rd _ _, fun _ => rfl, rfl, fun _ => rfl, ⟨rfl, rfl⟩,
    sameHost_refl s⟩

/-! ## Immediates (R161, R163) -/

theorem immUpper_eq_ofInt (imm : BitVec 20) : immUpper imm = BitVec.ofInt 64 (imm.toInt * 4096) := by
  rw [Int.mul_comm]
  exact congrArg (BitVec.ofInt 64) BitVec.toInt_append_zero

theorem toInt_immSigned (imm : BitVec 12) : (immSigned imm).toInt = imm.toInt :=
  BitVec.toInt_signExtend_of_le (by decide)

/-! ## Comparisons (R308, R309) -/

theorem setLess_eq_bit (a b : Word) : setLess a b = bit (a.toInt < b.toInt) := by
  simp only [setLess, boolWord, bit, BitVec.slt_iff_toInt_lt]

theorem setLessU_eq_bit (a b : Word) : setLessU a b = bit (a.toNat < b.toNat) := by
  simp only [setLessU, boolWord, bit, BitVec.ult_iff_toNat_lt]

/-! ## Sums and differences modulo the width (R300) -/

section Widths

variable {n : Nat} (a b : BitVec n) (k : Nat)

theorem add_eq_ofInt : a + b = BitVec.ofInt n (a.toInt + b.toInt) := by
  rw [BitVec.ofInt_add, BitVec.ofInt_toInt, BitVec.ofInt_toInt]

theorem sub_eq_ofInt : a - b = BitVec.ofInt n (a.toInt - b.toInt) :=
  BitVec.eq_of_toInt_eq (by rw [BitVec.toInt_sub, BitVec.toInt_ofInt])

/-! ## Shifts as multiplication and floor division -/

theorem shiftLeft_eq_ofNat : a <<< k = BitVec.ofNat n (a.toNat * 2 ^ k) :=
  congrArg (BitVec.ofNat n) (Nat.shiftLeft_eq a.toNat k)

theorem ushiftRight_eq_ofNat : a >>> k = BitVec.ofNat n (a.toNat / 2 ^ k) := by
  rw [← Nat.shiftRight_eq_div_pow, ← BitVec.toNat_ushiftRight, BitVec.ofNat_toNat, BitVec.setWidth_eq]

theorem sshiftRight_eq_ofInt : a.sshiftRight k = BitVec.ofInt n (a.toInt / 2 ^ k) := by
  rw [BitVec.sshiftRight, Int.shiftRight_eq_div_pow, Nat.cast_pow, Nat.cast_ofNat]

end Widths

/-! ## 32-bit views (R302) -/

theorem toNat_low32 (a : Word) : (low32 a).toNat = uW a := BitVec.toNat_setWidth 32 a

theorem toInt_low32 (a : Word) : (low32 a).toInt = sW a := rfl

/-- The 32-bit view of a register is its signed value wrapped to 32 bits. -/
theorem low32_eq_ofInt (a : Word) : low32 a = BitVec.ofInt 32 a.toInt :=
  (BitVec.signExtend_eq_setWidth_of_le a (by decide)).symm

theorem sext32_ofInt (z : Int) : sext32 (BitVec.ofInt 32 z) = sextW z := rfl

theorem sext32_ofNat (m : Nat) : sext32 (BitVec.ofNat 32 m) = sextW m := by
  rw [← sext32_ofInt, BitVec.ofInt_natCast]

theorem viewW_add (a b : Word) : viewW (· + ·) a b = sextW (a.toInt + b.toInt) := by
  rw [viewW, low32_eq_ofInt, low32_eq_ofInt, ← BitVec.ofInt_add, sext32_ofInt]

theorem viewW_sub (a b : Word) : viewW (· - ·) a b = sextW (a.toInt - b.toInt) := by
  rw [viewW, Int.sub_eq_add_neg, low32_eq_ofInt, low32_eq_ofInt, BitVec.sub_eq_add_neg, ← BitVec.ofInt_neg,
    ← BitVec.ofInt_add, sext32_ofInt]

/-! ## Shift amounts (R301) -/

theorem shiftAmount_eq_mod (b : Word) : shiftAmount b = b.toNat % 64 := rfl

theorem shiftAmountW_eq_mod (b : Word) : shiftAmountW b = b.toNat % 32 := rfl

theorem shiftAmount_setWidth (k : BitVec 6) : shiftAmount (k.setWidth 64) = k.toNat := by
  rw [shiftAmount_eq_mod, BitVec.toNat_setWidth_of_le (by decide), Nat.mod_eq_of_lt k.isLt]

theorem shiftAmountW_setWidth (k : BitVec 5) : shiftAmountW (k.setWidth 64) = k.toNat := by
  rw [shiftAmountW_eq_mod, BitVec.toNat_setWidth_of_le (by decide), Nat.mod_eq_of_lt k.isLt]

section Amounts

variable {b : Word} {n : Nat} (a : Word)

theorem shiftLeft_of_amount (h : shiftAmount b = n) : shiftLeft a b = BitVec.ofNat 64 (a.toNat * 2 ^ n) := by
  rw [shiftLeft, h, shiftLeft_eq_ofNat]

theorem shiftRight_of_amount (h : shiftAmount b = n) : shiftRight a b = BitVec.ofNat 64 (a.toNat / 2 ^ n) := by
  rw [shiftRight, h, ushiftRight_eq_ofNat]

theorem shiftRightArith_of_amount (h : shiftAmount b = n) :
    shiftRightArith a b = BitVec.ofInt 64 (a.toInt / 2 ^ n) := by
  rw [shiftRightArith, h, sshiftRight_eq_ofInt]

theorem shiftLeftW_of_amount (h : shiftAmountW b = n) : shiftLeftW a b = sextW (uW a * 2 ^ n : Nat) := by
  rw [shiftLeftW, h, shiftLeft_eq_ofNat, toNat_low32, sext32_ofNat]

theorem shiftRightW_of_amount (h : shiftAmountW b = n) : shiftRightW a b = sextW (uW a / 2 ^ n : Nat) := by
  rw [shiftRightW, h, ushiftRight_eq_ofNat, toNat_low32, sext32_ofNat]

theorem shiftRightArithW_of_amount (h : shiftAmountW b = n) : shiftRightArithW a b = sextW (sW a / 2 ^ n) := by
  rw [shiftRightArithW, h, sshiftRight_eq_ofInt, toInt_low32, sext32_ofInt]

end Amounts

/-! ## The operations -/

/-- Settles O17: the U-immediate is its signed value times 4096, and SLTI sees the signed value of the I-immediate; the other
results are the operations themselves. -/
theorem immediateForms : Obligations.ImmediateForms := by
  intro s rd rs1 upper imm a b
  have hslti : setLess a (immSigned imm) = bit (a.toInt < imm.toInt) := by rw [setLess_eq_bit, toInt_immSigned]
  exact ⟨setsX_of_retireX rfl (immUpper_eq_ofInt upper),
    setsX_of_retireX rfl (congrArg (s.pc + ·) (immUpper_eq_ofInt upper)), setsX_of_retireX rfl rfl,
    setsX_of_retireX rfl hslti, setsX_of_retireX rfl (setLessU_eq_bit _ _), setsX_of_retireX rfl rfl,
    setsX_of_retireX rfl rfl, setsX_of_retireX rfl rfl⟩

/-- Settles O18: a sum or difference of words is the wrapped one of their values, and a comparison compares these. -/
theorem registerRegister : Obligations.RegisterRegister := by
  intro s rd rs1 rs2 a b
  exact ⟨setsX_of_retireX rfl (add_eq_ofInt a b), setsX_of_retireX rfl (sub_eq_ofInt a b),
    setsX_of_retireX rfl (setLess_eq_bit a b), setsX_of_retireX rfl (setLessU_eq_bit a b), setsX_of_retireX rfl rfl,
    setsX_of_retireX rfl rfl, setsX_of_retireX rfl rfl⟩

/-- Settles O19: the amount is the field of an immediate shift, and the register modulo 64 of a register shift. -/
theorem shifts64 : Obligations.Shifts64 := by
  intro s rd rs1 rs2 k a n
  have hk := shiftAmount_setWidth k
  have hn : shiftAmount (s.rx rs2) = n := shiftAmount_eq_mod _
  exact ⟨setsX_of_retireX rfl (shiftLeft_of_amount a hk), setsX_of_retireX rfl (shiftRight_of_amount a hk),
    setsX_of_retireX rfl (shiftRightArith_of_amount a hk), setsX_of_retireX rfl (shiftLeft_of_amount a hn),
    setsX_of_retireX rfl (shiftRight_of_amount a hn), setsX_of_retireX rfl (shiftRightArith_of_amount a hn)⟩

/-- Settles O20: wrapping to 32 bits commutes with sums and differences, and the shifts act on the 32-bit views. -/
theorem wordForms : Obligations.WordForms := by
  intro s rd rs1 rs2 imm k a b n
  have haddiw : viewW (· + ·) a (immSigned imm) = sextW (a.toInt + imm.toInt) := by rw [viewW_add, toInt_immSigned]
  have hk := shiftAmountW_setWidth k
  have hn : shiftAmountW b = n := shiftAmountW_eq_mod b
  exact ⟨setsX_of_retireX rfl haddiw, setsX_of_retireX rfl (viewW_add a b), setsX_of_retireX rfl (viewW_sub a b),
    setsX_of_retireX rfl (shiftLeftW_of_amount a hk), setsX_of_retireX rfl (shiftRightW_of_amount a hk),
    setsX_of_retireX rfl (shiftRightArithW_of_amount a hk), setsX_of_retireX rfl (shiftLeftW_of_amount a hn),
    setsX_of_retireX rfl (shiftRightW_of_amount a hn), setsX_of_retireX rfl (shiftRightArithW_of_amount a hn)⟩

end Sys2Proof.Machine
end

section
/-! Multiplication and division in numbers (41_muldiv.md): a product is exact before it is narrowed, a quotient rounds toward
zero, and the two corner cases of R350 are recognised by the operands' values, in both widths. -/

namespace Sys2Proof.Machine

open Sys2Proof.Spec

/-! ## Products (R351 to R354, R359) -/

theorem mul_eq_ofInt {n : Nat} (a b : BitVec n) : a * b = BitVec.ofInt n (a.toInt * b.toInt) := by
  rw [BitVec.ofInt_mul, BitVec.ofInt_toInt, BitVec.ofInt_toInt]

/-- Bits 127 to 64 of an integer are its floor quotient by 2^64, wrapped. -/
theorem highHalf_eq_ofInt (p : Int) : highHalf p = BitVec.ofInt 64 (p / 2 ^ 64) := by
  apply BitVec.eq_of_toNat_eq
  rw [highHalf, BitVec.extractLsb'_toNat, Nat.shiftRight_eq_div_pow, BitVec.toNat_ofInt, BitVec.toNat_ofInt]
  omega

theorem mulHighU_eq_ofNat (a b : Word) : mulHighU a b = BitVec.ofNat 64 (a.toNat * b.toNat / 2 ^ 64) := by
  rw [mulHighU, highHalf_eq_ofInt, ← BitVec.ofInt_natCast]
  norm_cast

theorem viewW_mul (a b : Word) : viewW (· * ·) a b = sextW (a.toInt * b.toInt) := by
  rw [viewW, low32_eq_ofInt, low32_eq_ofInt, ← BitVec.ofInt_mul, sext32_ofInt]

/-! ## The corner cases (R350) -/

section Corners

variable {n : Nat} (a b : BitVec n)

theorem eq_zero_iff_toNat : b = 0#n ↔ b.toNat = 0 := BitVec.toNat_inj.symm

/-- The signed division that overflows is that of the most negative value by -1. -/
theorem overflow_iff_toInt (hn : 0 < n) :
    a = BitVec.intMin n ∧ b = BitVec.allOnes n ↔ a.toInt = -(2 ^ (n - 1)) ∧ b.toInt = -1 := by
  rw [← BitVec.toInt_inj, ← BitVec.toInt_inj, BitVec.toInt_intMin_of_pos hn, BitVec.toInt_allOnes, if_pos hn]

theorem allOnes_eq_ofInt : BitVec.allOnes n = BitVec.ofInt n (-1) := by
  rw [BitVec.ofInt_neg, BitVec.ofInt_ofNat, BitVec.neg_one_eq_allOnes]

/-! ## Quotients and remainders in numbers -/

theorem divSigned_eq_ite (hn : 0 < n) : divSigned a b =
    if b.toNat = 0 then BitVec.ofInt n (-1) else if a.toInt = -(2 ^ (n - 1)) ∧ b.toInt = -1 then a
    else BitVec.ofInt n (a.toInt.tdiv b.toInt) :=
  ite_congr (propext (eq_zero_iff_toNat b)) (fun _ => allOnes_eq_ofInt) fun _ =>
    ite_congr (propext (overflow_iff_toInt a b hn)) (fun h => ((overflow_iff_toInt a b hn).mpr h).1.symm) fun _ => rfl

theorem divUnsigned_eq_ite : divUnsigned a b =
    if b.toNat = 0 then BitVec.ofInt n (-1) else BitVec.ofNat n (a.toNat / b.toNat) :=
  ite_congr (propext (eq_zero_iff_toNat b)) (fun _ => allOnes_eq_ofInt) fun _ => rfl

theorem remSigned_eq_ite (hn : 0 < n) : remSigned a b =
    if b.toNat = 0 then a else if a.toInt = -(2 ^ (n - 1)) ∧ b.toInt = -1 then 0#n
    else BitVec.ofInt n (a.toInt.tmod b.toInt) :=
  ite_congr (propext (eq_zero_iff_toNat b)) (fun _ => rfl) fun _ =>
    ite_congr (propext (overflow_iff_toInt a b hn)) (fun _ => rfl) fun _ => by rw [Int.tmod_def]

theorem remUnsigned_eq_ite : remUnsigned a b = if b.toNat = 0 then a else BitVec.ofNat n (a.toNat % b.toNat) :=
  if_congr (eq_zero_iff_toNat b) rfl rfl

end Corners

/-! ## The 32-bit forms (R360 to R363) -/

section WordForms

variable (a b : Word)

theorem sext32_low32 : sext32 (low32 a) = sextW (sW a) := by
  rw [← sext32_ofInt, ← toInt_low32, BitVec.ofInt_toInt]

theorem sextW_neg_one : sextW (-1) = BitVec.ofInt 64 (-1) := by decide

theorem sextW_intMin : sextW (-(2 ^ 31)) = BitVec.ofInt 64 (-(2 ^ 31)) := by decide

theorem viewW_divSigned : viewW divSigned a b =
    if uW b = 0 then BitVec.ofInt 64 (-1) else if sW a = -(2 ^ 31) ∧ sW b = -1 then BitVec.ofInt 64 (-(2 ^ 31))
    else sextW ((sW a).tdiv (sW b)) := by
  rw [viewW, divSigned_eq_ite _ _ (by decide), apply_ite sext32, apply_ite sext32, toNat_low32, toInt_low32,
    toInt_low32, sext32_low32, sext32_ofInt, sext32_ofInt, sextW_neg_one]
  exact if_congr Iff.rfl rfl (ite_congr rfl (fun h => by rw [h.1, sextW_intMin]) fun _ => rfl)

theorem viewW_divUnsigned : viewW divUnsigned a b =
    if uW b = 0 then BitVec.ofInt 64 (-1) else sextW (uW a / uW b : Nat) := by
  rw [viewW, divUnsigned_eq_ite, apply_ite sext32, toNat_low32, toNat_low32, sext32_ofInt, sext32_ofNat, sextW_neg_one]

theorem viewW_remSigned : viewW remSigned a b =
    if uW b = 0 then sextW (sW a) else if sW a = -(2 ^ 31) ∧ sW b = -1 then 0#64
    else sextW ((sW a).tmod (sW b)) := by
  rw [viewW, remSigned_eq_ite _ _ (by decide), apply_ite sext32, apply_ite sext32, toNat_low32, toInt_low32,
    toInt_low32, sext32_low32, sext32_ofInt]
  rfl

theorem viewW_remUnsigned : viewW remUnsigned a b =
    if uW b = 0 then sextW (sW a) else sextW (uW a % uW b : Nat) := by
  rw [viewW, remUnsigned_eq_ite, apply_ite sext32, toNat_low32, toNat_low32, sext32_low32, sext32_ofNat]

end WordForms

/-! ## The operations -/

/-- Settles O21: the low half of a product is that of the signed values, and the high half is its floor quotient by 2^64. -/
theorem multiplication : Obligations.Multiplication := by
  intro s rd rs1 rs2 a b
  exact ⟨setsX_of_retireX rfl (mul_eq_ofInt a b), setsX_of_retireX rfl (highHalf_eq_ofInt _),
    setsX_of_retireX rfl (highHalf_eq_ofInt _), setsX_of_retireX rfl (mulHighU_eq_ofNat a b),
    setsX_of_retireX rfl (viewW_mul a b)⟩

/-- Settles O22: each quotient and remainder by its cases, at width 64 and on the 32-bit views. -/
theorem division : Obligations.Division := by
  constructor <;> intro s rd rs1 rs2 a b overflow
  · exact ⟨setsX_of_retireX rfl (divSigned_eq_ite a b (by decide)), setsX_of_retireX rfl (divUnsigned_eq_ite a b),
      setsX_of_retireX rfl (remSigned_eq_ite a b (by decide)), setsX_of_retireX rfl (remUnsigned_eq_ite a b)⟩
  · exact ⟨setsX_of_retireX rfl (viewW_divSigned a b), setsX_of_retireX rfl (viewW_divUnsigned a b),
      setsX_of_retireX rfl (viewW_remSigned a b), setsX_of_retireX rfl (viewW_remUnsigned a b)⟩

end Sys2Proof.Machine
end

section
/-! Floating-point patterns (42_fp_numerics.md R400, R401): a pattern is its sign bit and the magnitude of its other bits, and
the fields are those of the magnitude. -/

namespace Sys2Proof.Machine

open Sys2Proof.Spec

section Signs

variable {w : Nat} (neg : Bool) (b : BitVec w)

theorem magnitudeOf_lt : magnitudeOf b < 2 ^ (w - 1) := Nat.mod_lt _ (Nat.two_pow_pos _)

theorem toNat_withSign (hw : 0 < w) {M : Nat} (hM : M < 2 ^ (w - 1)) :
    (withSign neg M : BitVec w).toNat = (if neg then 2 ^ (w - 1) else 0) + M := by
  have h2 := Nat.two_pow_pred_add_two_pow_pred hw
  rw [withSign, BitVec.toNat_ofNat]
  apply Nat.mod_eq_of_lt
  split <;> omega

@[simp] theorem magnitudeOf_withSign (hw : 0 < w) {M : Nat} (hM : M < 2 ^ (w - 1)) :
    magnitudeOf (withSign neg M : BitVec w) = M := by
  rw [magnitudeOf, toNat_withSign neg hw hM]
  cases neg with
  | false => rw [if_neg Bool.false_ne_true, Nat.zero_add, Nat.mod_eq_of_lt hM]
  | true => rw [if_pos rfl, Nat.add_mod_left, Nat.mod_eq_of_lt hM]

@[simp] theorem signOf_withSign (hw : 0 < w) {M : Nat} (hM : M < 2 ^ (w - 1)) :
    signOf (withSign neg M : BitVec w) = neg := by
  rw [signOf, BitVec.msb_eq_decide, toNat_withSign neg hw hM]
  cases neg with
  | false => exact decide_eq_false (by simpa using hM)
  | true => exact decide_eq_true (by simp)

theorem toNat_eq_sign_add_magnitude (hw : 0 < w) :
    b.toNat = (if signOf b then 2 ^ (w - 1) else 0) + magnitudeOf b := by
  have hb := b.isLt
  have h2 := Nat.two_pow_pred_add_two_pow_pred hw
  rw [magnitudeOf, signOf, BitVec.msb_eq_decide]
  by_cases h : 2 ^ (w - 1) ≤ b.toNat
  · rw [if_pos (decide_eq_true h), Nat.mod_eq_sub_mod h, Nat.mod_eq_of_lt (by omega)]
    omega
  · rw [if_neg (by simpa using h), Nat.mod_eq_of_lt (Nat.lt_of_not_le h), Nat.zero_add]

/-- A pattern is the one of its sign and its magnitude. -/
theorem withSign_signOf_magnitudeOf (hw : 0 < w) : withSign (signOf b) (magnitudeOf b) = b := by
  rw [withSign, ← toNat_eq_sign_add_magnitude b hw, BitVec.ofNat_toNat, BitVec.setWidth_eq]

end Signs

end Sys2Proof.Machine
end

section
/-! Floating-point instructions (42_fp_numerics.md to 44_fp_double.md): the effective rounding mode comes first, and an
instruction that completes writes its result, accrues its flags and moves the pc (R404, R405, R430). -/

namespace Sys2Proof.Machine

open Sys2Proof.Spec

variable {s : State} {i : Instr}

/-! ## The effective rounding mode (R62, R404, R405) -/

theorem toNat_frmOf (c : BitVec 8) : (frmOf c).toNat = c.toNat / 32 := by
  have hc := c.isLt
  rw [frmOf, BitVec.extractLsb'_toNat, Nat.shiftRight_eq_div_pow]
  omega

theorem frmOf_eq_ofNat (c : BitVec 8) : frmOf c = BitVec.ofNat 3 (c.toNat / 32) := by
  rw [← toNat_frmOf, BitVec.ofNat_toNat, BitVec.setWidth_eq]

theorem modeOfFrm_eq_modeByNumber (frm : BitVec 3) : modeOfFrm frm = modeByNumber frm.toNat := by
  decide +revert

theorem effectiveMode_dyn (c : BitVec 8) : effectiveMode .dyn c = modeByNumber (c.toNat / 32) := by
  rw [effectiveMode, modeOfFrm_eq_modeByNumber, toNat_frmOf]

/-- The mode of an rm field is the one of its number, and DYN's the one of frm's number. -/
theorem effectiveMode_eq_modeByNumber (rm : Rm) (c : BitVec 8) :
    effectiveMode rm c = if rm.toBits = 7#3 then modeByNumber (c.toNat / 32) else modeByNumber rm.toBits.toNat := by
  cases rm with
  | dyn => exact effectiveMode_dyn c
  | rne | rtz | rdn | rup | rmm => rfl

theorem modeByNumber_of_five_le {n : Nat} (h : 5 ≤ n) : modeByNumber n = none := by
  simp only [modeByNumber, show n ≠ 0 by omega, show n ≠ 1 by omega, show n ≠ 2 by omega, show n ≠ 3 by omega,
    show n ≠ 4 by omega, if_false]

theorem withMode_of_no_mode {rm : Rm} (h : effectiveMode rm s.fcsr = none) (k : RoundingMode → Result) :
    withMode rm s k = raise (.illegalRoundingMode (frmOf s.fcsr)) s := by
  simp only [withMode, h]

/-- An instruction under DYN stops where frm selects no mode, whatever it would go on with (R405). -/
theorem stops_of_withMode_dyn {k : RoundingMode → Result} (hfrm : 5 ≤ s.fcsr.toNat / 32)
    (hi : exec i s = withMode .dyn s k) : Stops i s (.illegalRoundingMode (BitVec.ofNat 3 (s.fcsr.toNat / 32))) := by
  have hmode : effectiveMode .dyn s.fcsr = none := (effectiveMode_dyn _).trans (modeByNumber_of_five_le hfrm)
  obtain ⟨t, ht, hstop⟩ := raise_stoppedAs (.illegalRoundingMode (frmOf s.fcsr)) s
  exact ⟨t, hi.trans ((withMode_of_no_mode hmode k).trans ht), frmOf_eq_ofNat s.fcsr ▸ hstop⟩

/-- Settles O38: a mode is found by its number, and each of the listed instructions asks for its mode first. -/
theorem roundingModes : Obligations.RoundingModes := by
  refine ⟨effectiveMode_eq_modeByNumber, fun s d a b c x hfrm i hi => ?_⟩
  fin_cases hi <;> exact stops_of_withMode_dyn hfrm rfl

/-! ## The ends of a floating-point instruction (R413, R414, R430) -/

theorem accrued_accrueFlags {s t : State} {fl : FlagSet} (h : t.fcsr = accrueFlags s.fcsr fl) : Accrued s t fl := by
  rw [Accrued, h]
  exact ⟨frmOf_accrueFlags _ _, fflagsOf_accrueFlags _ _⟩

/-- A boxed pattern has ones above it (R410). -/
theorem boxS_eq_ofNat (v : BitVec 32) : boxS v = BitVec.ofNat 64 (0xFFFFFFFF * 2 ^ 32 + v.toNat) := by
  have hv := v.isLt
  apply BitVec.eq_of_toNat_eq
  rw [boxS, BitVec.toNat_append, BitVec.toNat_ofNat, BitVec.toNat_ofNat, Nat.shiftLeft_eq, Nat.mul_comm,
    ← Nat.two_pow_add_eq_or_of_lt hv]
  omega

theorem setsF_of_retireF {frd : FReg} {v w : Word} (hi : exec i s = retireF 4 frd v s) (hv : v = w) :
    SetsF i s (s.pc + 4#64) frd w := by
  subst hv
  exact ⟨_, hi.trans (retireF_next 4 frd v s), rfl, fun _ => rfl, fIs_wf s frd v _, rfl, fun _ => rfl, ⟨rfl, rfl⟩,
    sameHost_refl s⟩

theorem setsFFlags_of_retireD {frd : FReg} {r : Word × FlagSet} (hi : exec i s = retireD frd r s) :
    SetsFFlags i s frd r :=
  ⟨_, hi.trans (retireD_next frd r s), rfl, fun _ => rfl, fIs_wf s frd r.1 (s.nextPc 4),
    accrued_accrueFlags rfl, fun _ => rfl,
    ⟨rfl, rfl⟩, sameHost_refl s⟩

theorem setsFFlags_of_retireS {frd : FReg} {r : BitVec 32 × FlagSet} (hi : exec i s = retireS frd r s) :
    SetsFFlags i s frd (boxed r) := by
  refine setsFFlags_of_retireD (hi.trans ?_)
  rw [retireD_next, boxed, ← boxS_eq_ofNat, retireS_next]

theorem setsXFlags_of_retireXFlags {rd : XReg} {r : Word × FlagSet} (hi : exec i s = retireXFlags rd r s) :
    SetsXFlags i s rd r :=
  ⟨_, hi.trans (retireXFlags_next rd r s), rfl, xIs_wx s rd r.1 (s.nextPc 4), fun _ => rfl, accrued_accrueFlags rfl,
    fun _ => rfl, ⟨rfl, rfl⟩, sameHost_refl s⟩

/-! ## Arithmetic and conversions -/

/-- Settles O39: each operation goes on under the effective mode and ends by writing its boxed result. -/
theorem singleArithmetic : Obligations.SingleArithmetic := by
  intro s d a b c rm m hm x y z
  exact ⟨setsFFlags_of_retireS (withMode_of_mode hm _), setsFFlags_of_retireS (withMode_of_mode hm _),
    setsFFlags_of_retireS (withMode_of_mode hm _), setsFFlags_of_retireS (withMode_of_mode hm _),
    setsFFlags_of_retireS (withMode_of_mode hm _), setsFFlags_of_retireS (withMode_of_mode hm _),
    setsFFlags_of_retireS (withMode_of_mode hm _), setsFFlags_of_retireS (withMode_of_mode hm _),
    setsFFlags_of_retireS (withMode_of_mode hm _)⟩

/-- Settles O40: each operation goes on under the effective mode and ends by writing its whole result. -/
theorem doubleArithmetic : Obligations.DoubleArithmetic := by
  intro s d a b c rm m hm
  exact ⟨setsFFlags_of_retireD (withMode_of_mode hm _), setsFFlags_of_retireD (withMode_of_mode hm _),
    setsFFlags_of_retireD (withMode_of_mode hm _), setsFFlags_of_retireD (withMode_of_mode hm _),
    setsFFlags_of_retireD (withMode_of_mode hm _), setsFFlags_of_retireD (withMode_of_mode hm _),
    setsFFlags_of_retireD (withMode_of_mode hm _), setsFFlags_of_retireD (withMode_of_mode hm _),
    setsFFlags_of_retireD (withMode_of_mode hm _)⟩

/-- Settles O43: a conversion goes on under the effective mode and ends by writing its result, boxed if it is of S. -/
theorem conversionsComplete : Obligations.ConversionsComplete := by
  intro s x d a rm m hm u v n
  exact ⟨setsXFlags_of_retireXFlags (withMode_of_mode hm _), setsXFlags_of_retireXFlags (withMode_of_mode hm _),
    setsXFlags_of_retireXFlags (withMode_of_mode hm _), setsXFlags_of_retireXFlags (withMode_of_mode hm _),
    setsXFlags_of_retireXFlags (withMode_of_mode hm _), setsXFlags_of_retireXFlags (withMode_of_mode hm _),
    setsXFlags_of_retireXFlags (withMode_of_mode hm _), setsXFlags_of_retireXFlags (withMode_of_mode hm _),
    setsFFlags_of_retireS (withMode_of_mode hm _), setsFFlags_of_retireS (withMode_of_mode hm _),
    setsFFlags_of_retireS (withMode_of_mode hm _), setsFFlags_of_retireS (withMode_of_mode hm _),
    setsFFlags_of_retireD (withMode_of_mode hm _), setsFFlags_of_retireD (withMode_of_mode hm _),
    setsFFlags_of_retireD (withMode_of_mode hm _), setsFFlags_of_retireD (withMode_of_mode hm _),
    setsFFlags_of_retireS (withMode_of_mode hm _), setsFFlags_of_retireD (withMode_of_mode hm _)⟩

/-! ## Sign injection and raw moves (R435, R436) -/

/-- The sign bit is the top bit, and the magnitude is all the others. -/
theorem setSign_eq_append {n : Nat} (neg : Bool) (a : BitVec (1 + n)) :
    setSign neg a = BitVec.ofBool neg ++ a.extractLsb' 0 n := by
  have hn : 1 + n - 1 = n := Nat.add_sub_cancel_left 1 n
  have ha : a.toNat % 2 ^ n < 2 ^ n := Nat.mod_lt _ (Nat.two_pow_pos n)
  apply BitVec.eq_of_toNat_eq
  rw [setSign, toNat_withSign neg (by omega) (magnitudeOf_lt a), magnitudeOf, hn, BitVec.toNat_append,
    BitVec.extractLsb'_toNat, Nat.shiftRight_zero, Nat.shiftLeft_eq, Nat.mul_comm, ← Nat.two_pow_add_eq_or_of_lt ha]
  cases neg with
  | false => simp
  | true => simp

theorem ofBool_signOf {n : Nat} (b : BitVec (1 + n)) : BitVec.ofBool (signOf b) = b.extractLsb' n 1 := by
  ext k hk
  obtain rfl : k = 0 := by omega
  simp [signOf, BitVec.msb_eq_getLsbD_last]

section SignInjection

variable {n : Nat} (a b : BitVec (1 + n))

theorem fsgnj_eq_append : fsgnj a b = b.extractLsb' n 1 ++ a.extractLsb' 0 n := by
  rw [fsgnj, setSign_eq_append, ofBool_signOf]

theorem fsgnjn_eq_append : fsgnjn a b = ~~~(b.extractLsb' n 1) ++ a.extractLsb' 0 n := by
  rw [fsgnjn, setSign_eq_append, ← BitVec.not_ofBool, ofBool_signOf]

theorem fsgnjx_eq_append : fsgnjx a b = (a.extractLsb' n 1 ^^^ b.extractLsb' n 1) ++ a.extractLsb' 0 n := by
  rw [fsgnjx, setSign_eq_append, ← BitVec.ofBool_xor_ofBool, ofBool_signOf, ofBool_signOf]

end SignInjection

theorem boxed_congr {v w : BitVec 32} (h : v = w) : boxS v = (boxed (w, noFlags)).1 := by
  rw [h, boxS_eq_ofNat, boxed]

/-- Settles O41: a sign injection puts a bit before the magnitude, and a raw move keeps or extends the bits it moves. -/
theorem signInjectionAndMoves : Obligations.SignInjectionAndMoves := by
  intro s d a b x p y z u v box
  have hbox : boxS (low32 (s.rx x)) = BitVec.ofNat 64 (0xFFFFFFFF * 2 ^ 32 + uW (s.rx x)) := by
    rw [boxS_eq_ofNat, toNat_low32]
  exact ⟨setsF_of_retireF rfl (boxed_congr (fsgnj_eq_append (n := 31) y z)),
    setsF_of_retireF rfl (boxed_congr (fsgnjn_eq_append (n := 31) y z)),
    setsF_of_retireF rfl (boxed_congr (fsgnjx_eq_append (n := 31) y z)),
    setsF_of_retireF rfl (fsgnj_eq_append (n := 63) u v), setsF_of_retireF rfl (fsgnjn_eq_append (n := 63) u v),
    setsF_of_retireF rfl (fsgnjx_eq_append (n := 63) u v), setsX_of_retireX rfl rfl, setsF_of_retireF rfl hbox,
    setsX_of_retireX rfl rfl, setsF_of_retireF rfl rfl⟩

end Sys2Proof.Machine
end

section
/-! What a floating-point pattern denotes (42_fp_numerics.md R400, R401, R408), by its sign and magnitude: the magnitudes below
that of infinity are the finite numbers, in order, and those above it are the NaNs. -/

/-! ## The two formats (R400) -/

namespace Sys2Proof.Spec.IsFormat

open Sys2Proof.Machine

variable {w : Nat} {F : Fmt w} (hF : IsFormat F)

include hF

theorem width : w - 1 = F.fracBits + F.expBits := by
  obtain ⟨rfl, hf, he⟩ | ⟨rfl, hf, he⟩ := hF <;> rw [hf, he]

theorem width_pos : 0 < w := by
  obtain ⟨rfl, -, -⟩ | ⟨rfl, -, -⟩ := hF <;> decide

theorem two_le_fracBits : 2 ≤ F.fracBits := by
  obtain ⟨-, hf, -⟩ | ⟨-, hf, -⟩ := hF <;> rw [hf] <;> decide

theorem two_le_expBits : 2 ≤ F.expBits := by
  obtain ⟨-, -, he⟩ | ⟨-, -, he⟩ := hF <;> rw [he] <;> decide

/-- The exponent range is wide against the precision: a square root and its rounding error lie well inside it. -/
theorem fracBits_add_four_lt_bias : F.fracBits + 4 < F.bias := by
  obtain ⟨-, hf, he⟩ | ⟨-, hf, he⟩ := hF <;> rw [Fmt.bias, hf, he] <;> decide

end Sys2Proof.Spec.IsFormat

namespace Sys2Proof.Machine

open Sys2Proof.Spec

variable {w : Nat} {F : Fmt w} {b : BitVec w}

/-! ## Magnitudes and their values (R401) -/

/-- The magnitude of the infinities. -/
def Fmt.infMag (F : Fmt w) : Nat := F.expOnes * 2 ^ F.fracBits

/-- The place of a magnitude's grid: its last digit is worth `2^(qmin + place)`. The subnormals share that of the smallest
normal numbers. -/
def Fmt.place (F : Fmt w) (M : Nat) : Nat := M / 2 ^ F.fracBits - 1

/-- The significand of a magnitude, in units of its last digit. -/
def Fmt.sig (F : Fmt w) (M : Nat) : Nat := M - F.place M * 2 ^ F.fracBits

/-- The number a finite magnitude denotes. -/
def Fmt.magValue (F : Fmt w) (M : Nat) : ℚ := F.sig M * 2 ^ (F.qmin + F.place M)

/-- A number with a sign. -/
def signedValue (neg : Bool) (x : ℚ) : ℚ := (if neg then -1 else 1) * x

@[simp] theorem signedValue_false (x : ℚ) : signedValue false x = x := one_mul x

@[simp] theorem signedValue_true (x : ℚ) : signedValue true x = -x := neg_one_mul x

/-- The sign of a product is that of both factors together (R420). -/
theorem signedValue_mul (p q : Bool) (x y : ℚ) :
    signedValue (p ^^ q) (x * y) = signedValue p x * signedValue q y := by
  cases p <;> cases q <;> simp

theorem signedValue_div (p q : Bool) (x y : ℚ) :
    signedValue (p ^^ q) (x / y) = signedValue p x / signedValue q y := by
  cases p <;> cases q <;> simp [neg_div, div_neg]

theorem signedValue_eq_ite (neg : Bool) (x : ℚ) : signedValue neg x = if neg then -x else x := by
  cases neg <;> simp

theorem infinity_eq_withSign (F : Fmt w) (neg : Bool) : F.infinity neg = withSign neg F.infMag := rfl

theorem ratOf_eq_signedValue (F : Fmt w) (neg : Bool) (M : Nat) :
    ratOf neg (F.sig M) (F.qmin + F.place M) = signedValue neg (F.magValue M) := mul_assoc _ _ _

/-- `n` units of a grid are the magnitude `n` places after the grid's first one. -/
theorem magValue_add {j n : Nat} (hn : n ≤ 2 ^ (F.fracBits + 1)) (hj : j = 0 ∨ 2 ^ F.fracBits ≤ n) :
    F.magValue (j * 2 ^ F.fracBits + n) = n * 2 ^ (F.qmin + j) := by
  have hpos : 0 < 2 ^ F.fracBits := Nat.two_pow_pos _
  rw [Nat.pow_succ] at hn
  obtain hlt | hge := Nat.lt_or_ge n (2 ^ F.fracBits)
  · obtain rfl : j = 0 := hj.resolve_right (by omega)
    have hplace : F.place (0 * 2 ^ F.fracBits + n) = 0 := by
      rw [Fmt.place, Nat.zero_mul, Nat.zero_add, Nat.div_eq_of_lt hlt]
    rw [Fmt.magValue, Fmt.sig, hplace, Nat.zero_mul, Nat.sub_zero, Nat.zero_add]
  · obtain hlt2 | heq := Nat.lt_or_eq_of_le hn
    · have hplace : F.place (j * 2 ^ F.fracBits + n) = j := by
        rw [Fmt.place, Nat.mul_comm, Nat.mul_add_div hpos, Nat.div_eq_of_lt_le (k := 1) (by omega) (by omega),
          Nat.add_sub_cancel]
      rw [Fmt.magValue, Fmt.sig, hplace, Nat.add_sub_cancel_left]
    · have hplace : F.place (j * 2 ^ F.fracBits + n) = j + 1 := by
        rw [Fmt.place, heq, Nat.mul_comm, Nat.mul_add_div hpos, Nat.mul_div_cancel_left _ hpos]
        rfl
      have hsig : F.sig (j * 2 ^ F.fracBits + n) = 2 ^ F.fracBits := by
        rw [Fmt.sig, hplace, heq, Nat.add_mul]
        omega
      rw [Fmt.magValue, hsig, hplace, heq, Nat.cast_add, ← add_assoc, Nat.cast_one, zpow_add_one₀ two_ne_zero]
      push_cast
      ring

/-- Every magnitude stands on its own grid, and so does the next one. -/
theorem grid_of_magnitude (F : Fmt w) (M : Nat) :
    M = F.place M * 2 ^ F.fracBits + F.sig M ∧ F.sig M < 2 ^ (F.fracBits + 1) ∧
      (F.place M = 0 ∨ 2 ^ F.fracBits ≤ F.sig M) := by
  have hdiv := Nat.div_add_mod' M (2 ^ F.fracBits)
  have hmod : M % 2 ^ F.fracBits < 2 ^ F.fracBits := Nat.mod_lt _ (Nat.two_pow_pos _)
  rw [Fmt.sig, Fmt.place, Nat.pow_succ]
  obtain h0 | ⟨k, hk⟩ : M / 2 ^ F.fracBits = 0 ∨ ∃ k, M / 2 ^ F.fracBits = k + 1 :=
    (Nat.eq_zero_or_eq_succ_pred _).imp_right fun h => ⟨_, h⟩
  · rw [h0] at hdiv ⊢
    omega
  · rw [hk, Nat.add_mul] at hdiv
    rw [hk, Nat.add_sub_cancel]
    omega

theorem magValue_strictMono (F : Fmt w) : StrictMono F.magValue := by
  refine strictMono_nat_of_lt_succ fun M => ?_
  obtain ⟨hM, hsig, hplace⟩ := grid_of_magnitude F M
  have hnext : F.magValue (M + 1) = (F.sig M + 1 : Nat) * 2 ^ (F.qmin + F.place M) := by
    conv_lhs => rw [hM, Nat.add_assoc]
    exact magValue_add hsig (hplace.imp_right fun h => h.trans (Nat.le_succ _))
  rw [hnext, Fmt.magValue]
  gcongr
  exact Nat.lt_succ_self _

@[simp] theorem magValue_zero (F : Fmt w) : F.magValue 0 = 0 := by
  rw [Fmt.magValue, Fmt.sig, Nat.zero_sub, Nat.cast_zero, zero_mul]

theorem magValue_nonneg (F : Fmt w) (M : Nat) : 0 ≤ F.magValue M :=
  magValue_zero F ▸ (magValue_strictMono F).monotone (Nat.zero_le M)

/-! ## Patterns by their magnitude (R401, R408) -/

theorem expField_le (F : Fmt w) (b : BitVec w) : F.expField b ≤ F.expOnes :=
  Nat.le_pred_of_lt (Nat.mod_lt _ (Nat.two_pow_pos _))

section Patterns

variable (hF : IsFormat F)

include hF

theorem mul_two_pow_fracBits_even (j : Nat) : j * 2 ^ F.fracBits % 2 = 0 := by
  rw [← Nat.sub_add_cancel (Nat.one_le_of_lt hF.two_le_fracBits), Nat.pow_succ, ← Nat.mul_assoc, Nat.mul_mod_left]

theorem infMag_lt : F.infMag < 2 ^ (w - 1) := by
  rw [Fmt.infMag, Fmt.expOnes, hF.width, Nat.add_comm, Nat.pow_add]
  exact Nat.mul_lt_mul_of_pos_right (Nat.pred_lt (Nat.two_pow_pos _).ne') (Nat.two_pow_pos _)

theorem infMag_pos : 0 < F.infMag :=
  Nat.mul_pos (Nat.sub_pos_of_lt (Nat.one_lt_two_pow (by have := hF.two_le_expBits; omega))) (Nat.two_pow_pos _)

theorem expField_eq : F.expField b = magnitudeOf b / 2 ^ F.fracBits := by
  rw [Fmt.expField, magnitudeOf, hF.width, Nat.pow_add, Nat.mod_mul_right_div_self]

theorem fracField_eq : F.fracField b = magnitudeOf b % 2 ^ F.fracBits := by
  rw [Fmt.fracField, magnitudeOf, hF.width, Nat.pow_add, Nat.mod_mul_right_mod]

theorem magnitudeOf_eq_fields : magnitudeOf b = F.expField b * 2 ^ F.fracBits + F.fracField b := by
  rw [expField_eq hF, fracField_eq hF, Nat.div_add_mod']

theorem expField_eq_ones_iff : F.expField b = F.expOnes ↔ F.infMag ≤ magnitudeOf b := by
  rw [Fmt.infMag, ← Nat.le_div_iff_mul_le (Nat.two_pow_pos _), ← expField_eq hF]
  exact ⟨fun h => h.ge, fun h => (expField_le F b).antisymm h⟩

theorem datum_of_finite (h : magnitudeOf b < F.infMag) :
    F.datum b = .fin (signOf b) (F.sig (magnitudeOf b)) (F.qmin + F.place (magnitudeOf b)) := by
  have hfin : F.expField b ≠ F.expOnes := fun he => h.not_ge ((expField_eq_ones_iff hF).mp he)
  have hM := magnitudeOf_eq_fields hF (b := b)
  rw [Fmt.datum, if_neg hfin, Fmt.sig, Fmt.place, ← expField_eq hF]
  split
  next h0 => rw [h0, Nat.zero_mul, Nat.zero_add] at hM; rw [h0, hM]; simp
  next h0 =>
    obtain ⟨k, hk⟩ := Nat.exists_eq_succ_of_ne_zero h0
    rw [hk, Nat.succ_mul] at hM
    rw [hk, hM, Nat.succ_sub_one, Nat.add_assoc, Nat.add_sub_cancel_left]

theorem datum_of_infinite (h : magnitudeOf b = F.infMag) : F.datum b = .inf (signOf b) := by
  have hfrac : F.fracField b = 0 := by rw [fracField_eq hF, h, Fmt.infMag, Nat.mul_mod_left]
  rw [Fmt.datum, if_pos ((expField_eq_ones_iff hF).mpr h.ge), if_pos hfrac]

theorem datum_of_nan (h : F.infMag < magnitudeOf b) :
    F.datum b = .nan (decide (F.fracField b < 2 ^ (F.fracBits - 1))) := by
  have he := (expField_eq_ones_iff hF).mpr h.le
  have hfrac : F.fracField b ≠ 0 := fun h0 => by
    rw [magnitudeOf_eq_fields hF, he, h0] at h
    exact h.false
  rw [Fmt.datum, if_pos he, if_neg hfrac]

theorem denotes_iff {v : ℚ} :
    Denotes F b v ↔ magnitudeOf b < F.infMag ∧ v = signedValue (signOf b) (F.magValue (magnitudeOf b)) := by
  rw [← ratOf_eq_signedValue]
  constructor
  · rintro ⟨neg, m, e, hd, hv⟩
    obtain h | h | h := lt_trichotomy (magnitudeOf b) F.infMag
    · obtain ⟨rfl, rfl, rfl⟩ := Datum.fin.inj ((datum_of_finite hF h).symm.trans hd)
      exact ⟨h, hv⟩
    · cases (datum_of_infinite hF h).symm.trans hd
    · cases (datum_of_nan hF h).symm.trans hd
  · rintro ⟨h, hv⟩
    exact ⟨_, _, _, datum_of_finite hF h, hv⟩

end Patterns

end Sys2Proof.Machine
end

section
/-! NaNs (42_fp_numerics.md R408 to R414, R421 to R424, R427 to R429): which patterns they are, what an operation gives for
them, boxing, and the class, the order and the selection of patterns by their fields. -/

namespace Sys2Proof.Machine

open Sys2Proof.Spec

variable {w : Nat} {F : Fmt w} {a b c : BitVec w}

/-! ## NaNs by their fields (R408, R409) -/

theorem isNaN_iff : IsNaN F b ↔ (F.datum b).isNaN = true := by
  unfold Fmt.datum
  change F.expField b = F.expOnes ∧ F.fracField b ≠ 0 ↔ _
  split
  next he => split <;> simp [Datum.isNaN, *]
  next he => split <;> simp [Datum.isNaN, he]

/-- The fraction is below the quiet bit's worth exactly if the quiet bit is 0. -/
theorem fracField_lt_iff (hF : IsFormat F) :
    F.fracField b < 2 ^ (F.fracBits - 1) ↔ b.toNat / 2 ^ (F.fracBits - 1) % 2 = 0 := by
  have hpow : 2 ^ F.fracBits = 2 ^ (F.fracBits - 1) * 2 := by
    rw [← Nat.pow_succ, Nat.succ_eq_add_one, Nat.sub_add_cancel (Nat.one_le_of_lt hF.two_le_fracBits)]
  have hlow : b.toNat % 2 ^ (F.fracBits - 1) < 2 ^ (F.fracBits - 1) := Nat.mod_lt _ (Nat.two_pow_pos _)
  rw [Fmt.fracField, hpow, Nat.mod_mul]
  obtain h | h := Nat.mod_two_eq_zero_or_one (b.toNat / 2 ^ (F.fracBits - 1)) <;> rw [h] <;> omega

theorem isSNaN_iff (hF : IsFormat F) : IsSNaN F b ↔ (F.datum b).isSNaN = true := by
  rw [IsSNaN, ← fracField_lt_iff hF]
  change (F.expField b = F.expOnes ∧ F.fracField b ≠ 0) ∧ _ ↔ _
  unfold Fmt.datum
  split
  next he => split <;> simp [Datum.isSNaN, *]
  next he => split <;> simp [Datum.isSNaN, he]

theorem isNaN_iff_magnitude (hF : IsFormat F) : IsNaN F b ↔ F.infMag < magnitudeOf b := by
  rw [isNaN_iff]
  obtain h | h | h := lt_trichotomy (magnitudeOf b) F.infMag
  · simp [datum_of_finite hF h, Datum.isNaN, h.le]
  · simp [datum_of_infinite hF h, Datum.isNaN, h]
  · simp [datum_of_nan hF h, Datum.isNaN, h]

theorem canonicalNaN_eq_canonical (hF : IsFormat F) : F.canonicalNaN = canonical w := by
  obtain ⟨rfl, hf, he⟩ | ⟨rfl, hf, he⟩ := hF <;> rw [Fmt.canonicalNaN, Fmt.expOnes, hf, he] <;> decide

/-! ## Boxed singles (R410, R411, R414) -/

theorem toNat_boxS (v : BitVec 32) : (boxS v).toNat = 0xFFFFFFFF * 2 ^ 32 + v.toNat := by
  have hv := v.isLt
  rw [boxS_eq_ofNat, BitVec.toNat_ofNat]
  omega

theorem unboxS_boxS (v : BitVec 32) : unboxS (boxS v) = v := by
  have hv := v.isLt
  have hhigh : (boxS v).extractLsb' 32 32 = 0xFFFFFFFF#32 := BitVec.eq_of_toNat_eq <| by
    rw [BitVec.extractLsb'_toNat, toNat_boxS, Nat.shiftRight_eq_div_pow, BitVec.toNat_ofNat]
    omega
  rw [unboxS, if_pos hhigh]
  apply BitVec.eq_of_toNat_eq
  rw [BitVec.toNat_setWidth, toNat_boxS]
  omega

theorem unboxS_of_not_boxed {c : Word} (h : c.toNat / 2 ^ 32 ≠ 0xFFFFFFFF) : unboxS c = 0x7FC00000#32 := by
  have hc := c.isLt
  have hhigh : c.extractLsb' 32 32 ≠ 0xFFFFFFFF#32 := fun he => h <| by
    have := congrArg BitVec.toNat he
    rw [BitVec.extractLsb'_toNat, Nat.shiftRight_eq_div_pow, BitVec.toNat_ofNat] at this
    omega
  exact if_neg hhigh

theorem isFormat_fmtS : IsFormat fmtS := .inl ⟨rfl, rfl, rfl⟩

theorem isFormat_fmtD : IsFormat fmtD := .inr ⟨rfl, rfl, rfl⟩

/-- Read as a double, a boxed single has an exponent of all ones and the quiet bit set. -/
theorem datum_boxS (v : BitVec 32) : fmtD.datum (boxS v) = .nan false := by
  have hv := v.isLt
  have hexp : fmtD.expField (boxS v) = fmtD.expOnes := by
    change (boxS v).toNat / 2 ^ 52 % 2 ^ 11 = 2 ^ 11 - 1
    rw [toNat_boxS]
    omega
  have hfrac : 2 ^ 51 ≤ fmtD.fracField (boxS v) := by
    change 2 ^ 51 ≤ (boxS v).toNat % 2 ^ 52
    rw [toNat_boxS]
    omega
  have hquiet : ¬ fmtD.fracField (boxS v) < 2 ^ (fmtD.fracBits - 1) := hfrac.not_gt
  rw [Fmt.datum, if_pos hexp, if_neg (Nat.pos_of_ne_zero fun h0 => by omega).ne', decide_eq_false hquiet]

/-- Settles O44: a boxed single is a quiet NaN of D by its fields, and unboxing tests and drops its upper half. -/
theorem naNBoxing : Obligations.NaNBoxing := by
  refine ⟨fun v => ⟨unboxS_boxS v, toNat_boxS v, ?_, ?_, ?_⟩, fun c => unboxS_of_not_boxed⟩
  · rw [isNaN_iff, datum_boxS]
    rfl
  · rw [isSNaN_iff isFormat_fmtD, datum_boxS]
    exact Bool.false_ne_true
  · rw [Fmt.fclass, Fmt.classIndex, datum_boxS]
    rfl

/-! ## NaN operands (R421 to R424, R438) -/

theorem givesNaN_congr {r : BitVec w × FlagSet} {P Q : Prop} (hPQ : P ↔ Q) (h : GivesNaN r P) : GivesNaN r Q :=
  propext hPQ ▸ h

/-- An operation with a NaN among its operands gives the canonical NaN. -/
theorem arith_of_nan (hF : IsFormat F) (m : RoundingMode) {operands : List Datum} (iz : Bool) (exact : Exact)
    (h : operands.any Datum.isNaN = true) :
    GivesNaN (F.arith m operands iz exact) (operands.any Datum.isSNaN = true ∨ iz = true) := by
  rw [GivesNaN, ← canonicalNaN_eq_canonical hF]
  by_cases hP : operands.any Datum.isSNaN = true ∨ iz = true
  · have hr : F.arith m operands iz exact = (F.canonicalNaN, flagNV) := by
      unfold Fmt.arith
      obtain hs | hz := hP
      · rw [if_pos hs]
      · rw [if_pos hz, ite_self]
    exact hr ▸ ⟨rfl, fun _ => rfl, fun hn => absurd hP hn⟩
  · obtain ⟨hs, hz⟩ := not_or.mp hP
    have hr : F.arith m operands iz exact = (F.canonicalNaN, noFlags) := by
      unfold Fmt.arith
      rw [if_neg hs, if_neg hz, if_pos h]
    exact hr ▸ ⟨rfl, fun hp => absurd hp hP, fun _ => rfl⟩

/-- A value with its sign flipped, or not. -/
def Datum.negateIf (neg : Bool) (d : Datum) : Datum := if neg then d.negate else d

@[simp] theorem Datum.negateIf_inf (p neg : Bool) : (Datum.inf neg).negateIf p = .inf (p ^^ neg) := by
  cases p
  · exact congrArg Datum.inf (Bool.false_xor neg).symm
  · exact congrArg Datum.inf (Bool.true_xor neg).symm

@[simp] theorem Datum.negateIf_fin (p neg : Bool) (m : Nat) (e : Int) :
    (Datum.fin neg m e).negateIf p = .fin (p ^^ neg) m e := by
  cases p
  · exact congrArg (Datum.fin · m e) (Bool.false_xor neg).symm
  · exact congrArg (Datum.fin · m e) (Bool.true_xor neg).symm

@[simp] theorem Datum.isNaN_negateIf (p : Bool) (d : Datum) : (d.negateIf p).isNaN = d.isNaN := by
  cases p <;> cases d <;> rfl

@[simp] theorem Datum.isSNaN_negateIf (p : Bool) (d : Datum) : (d.negateIf p).isSNaN = d.isSNaN := by
  cases p <;> cases d <;> rfl

@[simp] theorem infTimesZero_negateIf (p : Bool) (d e : Datum) :
    infTimesZero (d.negateIf p) e = infTimesZero d e := by
  cases p <;> cases d <;> cases e <;> rfl

/-- A fused form is the one fused operation on values with the signs the form gives its product and its addend. -/
theorem fusedForm_eq_fma (m : RoundingMode) (a b c : BitVec w) : ∀ f ∈ fusedForms F,
    f.1 m a b c = F.fma m ((F.datum a).negateIf f.2.1) (F.datum b) ((F.datum c).negateIf f.2.2) := by
  simp only [fusedForms, List.forall_mem_cons]
  exact ⟨rfl, rfl, rfl, rfl, nofun⟩

/-- Settles O45: every operation hands its operands to `arith`, which looks for NaNs before anything else. -/
theorem naNOperands : Obligations.NaNOperands := by
  intro w F hF m a b c
  simp only [isNaN_iff, isSNaN_iff hF]
  refine ⟨fun hab r hr => ?_, fun ha => ?_, fun habc f hf => ?_⟩
  · have hany : [F.datum a, F.datum b].any Datum.isNaN = true := by simpa using hab
    have hsig : [F.datum a, F.datum b].any Datum.isSNaN = true ∨ false = true ↔
        (F.datum a).isSNaN = true ∨ (F.datum b).isSNaN = true := by simp
    simp only [List.mem_cons, List.not_mem_nil, or_false] at hr
    obtain rfl | rfl | rfl | rfl := hr <;> exact givesNaN_congr hsig (arith_of_nan hF m _ _ hany)
  · exact givesNaN_congr (by simp) (arith_of_nan hF m (operands := [F.datum a]) false _ (by simpa using ha))
  · rw [fusedForm_eq_fma m a b c f hf]
    refine givesNaN_congr ?_ (arith_of_nan hF m _ _ ?_)
    · simp [or_assoc]
    · simpa using habc

/-! ## Classes (R429) -/

theorem fclass_eq_classBit (F : Fmt w) (b : BitVec w) :
    F.fclass b =
      classBit (F.expField b) F.expOnes (F.fracField b) (2 ^ (F.fracBits - 1)) (signOf b = true) := by
  have hpos : 2 ^ F.fracBits + F.fracField b ≠ 0 := (Nat.add_pos_left (Nat.two_pow_pos _) _).ne'
  rw [Fmt.fclass, classBit]
  unfold Fmt.classIndex Fmt.datum
  by_cases he : F.expField b = F.expOnes
  · simp only [he, if_true]
    by_cases hf : F.fracField b = 0
    · simp only [hf, if_true]
      cases signOf b <;> rfl
    · simp only [hf, if_false]
      by_cases hq : F.fracField b < 2 ^ (F.fracBits - 1) <;> simp [hq]
  · simp only [he, if_false]
    by_cases h0 : F.expField b = 0
    · simp only [h0, if_true]
      by_cases hf : F.fracField b = 0
      · simp only [hf, if_true]
        cases signOf b <;> rfl
      · simp only [hf, if_false]
        cases signOf b <;> rfl
    · simp only [h0, if_false, hpos]
      cases signOf b <;> rfl

end Sys2Proof.Machine
end

section
/-! Classes, selection and compares (42_fp_numerics.md R427 to R429): the fields give the class, and the order of patterns by sign
and magnitude is the order of the values they denote. -/

namespace Sys2Proof.Machine

open Sys2Proof.Spec

variable {w : Nat} {F : Fmt w} {a b : BitVec w}

theorem toNat_field {n : Nat} (b : BitVec n) (start len : Nat) :
    (b.extractLsb' start len).toNat = b.toNat / 2 ^ start % 2 ^ len := by
  rw [BitVec.extractLsb'_toNat, Nat.shiftRight_eq_div_pow]

/-- The top bit is the sign. -/
theorem top_bit_iff {n : Nat} (b : BitVec (1 + n)) : b.extractLsb' n 1 = 1#1 ↔ signOf b = true := by
  rw [← ofBool_signOf]
  cases signOf b <;> decide

theorem fclassS_eq_classBit (x : BitVec 32) : fmtS.fclass x =
    classBit (x.extractLsb' 23 8).toNat 255 (x.extractLsb' 0 23).toNat (2 ^ 22) (x.extractLsb' 31 1 = 1#1) := by
  have hfrac : (x.extractLsb' 0 23).toNat = fmtS.fracField x := by
    rw [toNat_field, Nat.pow_zero, Nat.div_one]
    rfl
  rw [fclass_eq_classBit, hfrac, toNat_field]
  simp only [top_bit_iff (n := 31) x]
  rfl

theorem fclassD_eq_classBit (x : BitVec 64) : fmtD.fclass x =
    classBit (x.extractLsb' 52 11).toNat 2047 (x.extractLsb' 0 52).toNat (2 ^ 51) (x.extractLsb' 63 1 = 1#1) := by
  have hfrac : (x.extractLsb' 0 52).toNat = fmtD.fracField x := by
    rw [toNat_field, Nat.pow_zero, Nat.div_one]
    rfl
  rw [fclass_eq_classBit, hfrac, toNat_field]
  simp only [top_bit_iff (n := 63) x]
  rfl

/-- Settles O42: none of these reads a mode, and each ends by writing its result. -/
theorem selectCompareClassify : Obligations.SelectCompareClassify := by
  intro s rd d a b x y
  exact ⟨setsFFlags_of_retireS rfl, setsFFlags_of_retireS rfl, setsFFlags_of_retireD rfl, setsFFlags_of_retireD rfl,
    setsXFlags_of_retireXFlags rfl, setsXFlags_of_retireXFlags rfl, setsXFlags_of_retireXFlags rfl,
    setsXFlags_of_retireXFlags rfl, setsXFlags_of_retireXFlags rfl, setsXFlags_of_retireXFlags rfl,
    setsX_of_retireX rfl (fclassS_eq_classBit x), setsX_of_retireX rfl (fclassD_eq_classBit (s.rf a))⟩

/-! ## The order of patterns (R428) -/

/-- The number at a place of the numeric order. -/
def Fmt.keyValue (F : Fmt w) (k : Int) : ℚ := signedValue (decide (k < 0)) (F.magValue k.natAbs)

theorem keyValue_of_neg {k : Int} (h : k < 0) : F.keyValue k = -F.magValue k.natAbs := by
  rw [Fmt.keyValue, decide_eq_true h, signedValue_true]

theorem keyValue_of_nonneg {k : Int} (h : 0 ≤ k) : F.keyValue k = F.magValue k.natAbs := by
  rw [Fmt.keyValue, decide_eq_false h.not_gt, signedValue_false]

theorem keyValue_strictMono (F : Fmt w) : StrictMono F.keyValue := by
  intro k l hkl
  have hmono := magValue_strictMono F
  obtain hl | hl := lt_or_ge l 0
  · rw [keyValue_of_neg (hkl.trans hl), keyValue_of_neg hl]
    exact neg_lt_neg (hmono (by omega))
  · rw [keyValue_of_nonneg hl]
    obtain hk | hk := lt_or_ge k 0
    · rw [keyValue_of_neg hk]
      have hpos : F.magValue 0 < F.magValue k.natAbs := hmono (by omega)
      rw [magValue_zero] at hpos
      exact (neg_neg_of_pos hpos).trans_le (magValue_nonneg F _)
    · rw [keyValue_of_nonneg hk]
      exact hmono (by omega)

theorem numericKey_of_neg (h : signOf b = true) : numericKey b = -(magnitudeOf b : Int) := by
  rw [numericKey, if_pos h]

theorem numericKey_of_pos (h : signOf b = false) : numericKey b = magnitudeOf b := by
  rw [numericKey, h, if_neg Bool.false_ne_true]

theorem natAbs_numericKey (b : BitVec w) : (numericKey b).natAbs = magnitudeOf b := by
  cases hs : signOf b with
  | false => rw [numericKey_of_pos hs, Int.natAbs_natCast]
  | true => rw [numericKey_of_neg hs, Int.natAbs_neg, Int.natAbs_natCast]

theorem keyValue_numericKey (F : Fmt w) (b : BitVec w) :
    F.keyValue (numericKey b) = signedValue (signOf b) (F.magValue (magnitudeOf b)) := by
  cases hs : signOf b with
  | false => rw [numericKey_of_pos hs, keyValue_of_nonneg (by omega), signedValue_false, Int.natAbs_natCast]
  | true =>
    obtain h0 | hpos := Nat.eq_zero_or_pos (magnitudeOf b)
    · rw [numericKey_of_neg hs, h0, keyValue_of_nonneg (by omega), signedValue_true]
      simp
    · rw [numericKey_of_neg hs, keyValue_of_neg (by omega), signedValue_true, Int.natAbs_neg, Int.natAbs_natCast]

/-- Of two patterns that are no NaN, the smaller one by value comes first in the numeric order. -/
theorem datumLt_iff (hF : IsFormat F) (ha : ¬ IsNaN F a) (hb : ¬ IsNaN F b) :
    DatumLt (F.datum a) (F.datum b) ↔ numericKey a < numericKey b := by
  rw [isNaN_iff_magnitude hF, not_lt] at ha hb
  have hka := natAbs_numericKey a
  have hkb := natAbs_numericKey b
  obtain hfa | hia := Nat.lt_or_eq_of_le ha
  · obtain hfb | hib := Nat.lt_or_eq_of_le hb
    · rw [datum_of_finite hF hfa, datum_of_finite hF hfb, DatumLt, ratOf_eq_signedValue, ratOf_eq_signedValue,
        ← keyValue_numericKey, ← keyValue_numericKey, (keyValue_strictMono F).lt_iff_lt]
    · rw [datum_of_finite hF hfa, datum_of_infinite hF hib]
      cases hs : signOf b with
      | false => exact iff_of_true rfl (by rw [numericKey_of_pos hs]; omega)
      | true => exact iff_of_false Bool.true_eq_false.mp (by rw [numericKey_of_neg hs]; omega)
  · obtain hfb | hib := Nat.lt_or_eq_of_le hb
    · rw [datum_of_infinite hF hia, datum_of_finite hF hfb]
      cases hs : signOf a with
      | false => exact iff_of_false id (by rw [numericKey_of_pos hs]; omega)
      | true => exact iff_of_true trivial (by rw [numericKey_of_neg hs]; omega)
    · have hpos : 0 < F.infMag := infMag_pos hF
      rw [datum_of_infinite hF hia, datum_of_infinite hF hib]
      cases hs : signOf a with
      | false => exact iff_of_false id (by rw [numericKey_of_pos hs]; omega)
      | true =>
        rw [numericKey_of_neg hs]
        cases ht : signOf b with
        | false => exact iff_of_true rfl (by rw [numericKey_of_pos ht]; omega)
        | true => exact iff_of_false Bool.true_eq_false.mp (by rw [numericKey_of_neg ht]; omega)

/-- A NaN is not less than anything, and nothing is less than it. -/
theorem isNaN_eq_false_of_datumLt {d e : Datum} (h : DatumLt d e) : d.isNaN = false ∧ e.isNaN = false := by
  cases e with
  | nan => rcases d with _ | (_ | _) | _ <;> exact h.elim
  | inf | fin =>
    cases d with
    | nan => exact h.elim
    | inf | fin => exact ⟨rfl, rfl⟩

/-! ## Compares (R428) -/

theorem boolWord_spec {p : Bool} {P : Prop} (h : p = true ↔ P) :
    (P → boolWord p = 1#64) ∧ (¬ P → boolWord p = 0#64) := by
  rw [← h]
  exact ⟨fun hp => if_pos hp, fun hp => if_neg hp⟩

theorem flagIf_spec {p : Bool} {fl : FlagSet} {P : Prop} (h : p = true ↔ P) :
    (P → flagIf p fl = fl) ∧ (¬ P → flagIf p fl = noFlags) := by
  rw [← h]
  exact ⟨fun hp => if_pos hp, fun hp => if_neg hp⟩

theorem numbers_and_iff (p : Bool) :
    (!F.isNaN a && !F.isNaN b && p) = true ↔ ¬ (IsNaN F a ∨ IsNaN F b) ∧ p = true := by
  simp [isNaN_iff, Fmt.isNaN]

/-- Settles O53: the compares look for NaNs and then compare the patterns' places in the numeric order. -/
theorem comparesByValue : Obligations.ComparesByValue := by
  intro w F hF a b less greater nan signaling is
  have hnan : (F.isNaN a || F.isNaN b) = true ↔ nan := by simp [nan, isNaN_iff, Fmt.isNaN]
  have hsig : (F.isSNaN a || F.isSNaN b) = true ↔ signaling := by simp [signaling, isSNaN_iff hF, Fmt.isSNaN]
  have hless (hn : ¬ nan) : less ↔ numericKey a < numericKey b :=
    datumLt_iff hF (fun ha => hn (.inl ha)) fun hb => hn (.inr hb)
  have hgreater (hn : ¬ nan) : greater ↔ numericKey b < numericKey a :=
    datumLt_iff hF (fun hb => hn (.inr hb)) fun ha => hn (.inl ha)
  refine ⟨boolWord_spec ?_, boolWord_spec ?_, boolWord_spec ?_, fun hn => ?_, fun hn => ?_, (flagIf_spec hsig).1,
    (flagIf_spec hsig).2⟩
  · rw [numbers_and_iff, decide_eq_true_iff]
    exact and_congr_right fun hn => (hless hn).symm
  · rw [numbers_and_iff, decide_eq_true_iff]
    exact and_congr_right fun hn => by rw [hgreater hn, not_lt]
  · rw [numbers_and_iff, decide_eq_true_iff]
    exact and_congr_right fun hn => by rw [hless hn, hgreater hn, not_lt, not_lt, and_comm, le_antisymm_iff]
  · exact ⟨(flagIf_spec hnan).1 hn, (flagIf_spec hnan).1 hn⟩
  · exact ⟨(flagIf_spec hnan).2 hn, (flagIf_spec hnan).2 hn⟩

/-! ## Selection (R427) -/

section Select

variable (pick : Bool)

theorem select_of_nans (hF : IsFormat F) (ha : IsNaN F a) (hb : IsNaN F b) :
    (F.select pick a b).1 = canonical w := by
  rw [isNaN_iff] at ha hb
  simp only [Fmt.select, Fmt.isNaN, ha, hb, Bool.and_self, if_true, canonicalNaN_eq_canonical hF]

theorem select_of_nan_left (ha : IsNaN F a) (hb : ¬ IsNaN F b) : (F.select pick a b).1 = b := by
  rw [isNaN_iff] at ha hb
  simp [Fmt.select, Fmt.isNaN, ha, hb]

theorem select_of_nan_right (ha : ¬ IsNaN F a) (hb : IsNaN F b) : (F.select pick a b).1 = a := by
  rw [isNaN_iff] at ha hb
  simp [Fmt.select, Fmt.isNaN, ha, hb]

theorem select_of_numbers (ha : ¬ IsNaN F a) (hb : ¬ IsNaN F b) :
    (F.select pick a b).1 = if pick then a else b := by
  rw [isNaN_iff] at ha hb
  simp [Fmt.select, Fmt.isNaN, ha, hb]

theorem select_flags (hF : IsFormat F) :
    (IsSNaN F a ∨ IsSNaN F b → (F.select pick a b).2 = flagNV) ∧
      (¬ (IsSNaN F a ∨ IsSNaN F b) → (F.select pick a b).2 = noFlags) :=
  flagIf_spec (by simp [isSNaN_iff hF, Fmt.isSNaN])

end Select

section MinMax

variable (ha : ¬ IsNaN F a) (hb : ¬ IsNaN F b) (hlt : minMaxKey a < minMaxKey b)

include ha hb hlt

/-- Of two patterns that are no NaN, FMIN gives the one that comes first and FMAX the other, in either order. -/
theorem min_max_of_lt :
    (F.min a b).1 = a ∧ (F.max a b).1 = b ∧ (F.min b a).1 = a ∧ (F.max b a).1 = b := by
  have hle := hlt.le
  have hnle := hlt.not_ge
  simp only [Fmt.min, Fmt.max, select_of_numbers _ ha hb, select_of_numbers _ hb ha, decide_eq_true hle,
    decide_eq_false hnle, if_true, Bool.false_eq_true, if_false, and_self]

end MinMax

theorem minMaxKey_lt_of_numericKey_lt (h : numericKey a < numericKey b) : minMaxKey a < minMaxKey b := by
  rw [numericKey, numericKey] at h
  rw [minMaxKey, minMaxKey]
  split at h <;> split at h <;> simp only [*, if_true, if_false, Bool.false_eq_true] <;> omega

theorem min_max_self (hF : IsFormat F) (ha : ¬ IsNaN F a) : F.min a a = (a, noFlags) ∧ F.max a a = (a, noFlags) := by
  have hs : ¬ (IsSNaN F a ∨ IsSNaN F a) := fun h => h.elim (ha ·.1) (ha ·.1)
  have hself (pick : Bool) : F.select pick a a = (a, noFlags) :=
    Prod.ext ((select_of_numbers pick ha ha).trans (ite_self a)) ((select_flags pick hF).2 hs)
  exact ⟨hself _, hself _⟩

theorem select_cases (hF : IsFormat F) (pick : Bool) (a b : BitVec w) :
    (F.select pick a b).1 = a ∨ (F.select pick a b).1 = b ∨ (F.select pick a b).1 = canonical w := by
  by_cases ha : IsNaN F a
  · by_cases hb : IsNaN F b
    · exact .inr (.inr (select_of_nans pick hF ha hb))
    · exact .inr (.inl (select_of_nan_left pick ha hb))
  · by_cases hb : IsNaN F b
    · exact .inl (select_of_nan_right pick ha hb)
    · rw [select_of_numbers pick ha hb]
      cases pick with
      | false => exact .inr (.inl rfl)
      | true => exact .inl rfl

/-! ## Zeros (R401, R427) -/

theorem zeroOf_true : (zeroOf true : BitVec w) = 1#w <<< (w - 1) := by
  apply BitVec.eq_of_toNat_eq
  rw [BitVec.toNat_shiftLeft, Nat.shiftLeft_eq, BitVec.toNat_ofNat, Nat.mod_mul_mod, Nat.one_mul]
  rfl

theorem magnitudeOf_zeroOf (hF : IsFormat F) (neg : Bool) : magnitudeOf (zeroOf neg : BitVec w) = 0 :=
  magnitudeOf_withSign neg hF.width_pos (Nat.two_pow_pos _)

theorem signOf_zeroOf (hF : IsFormat F) (neg : Bool) : signOf (zeroOf neg : BitVec w) = neg :=
  signOf_withSign neg hF.width_pos (Nat.two_pow_pos _)

theorem not_isNaN_zeroOf (hF : IsFormat F) (neg : Bool) : ¬ IsNaN F (zeroOf neg) := by
  rw [isNaN_iff_magnitude hF, magnitudeOf_zeroOf hF]
  exact Nat.not_lt_zero _

theorem minMaxKey_zeroOf_lt (hF : IsFormat F) :
    minMaxKey (zeroOf true : BitVec w) < minMaxKey (zeroOf false : BitVec w) := by
  rw [minMaxKey, minMaxKey, signOf_zeroOf hF, signOf_zeroOf hF, magnitudeOf_zeroOf hF, magnitudeOf_zeroOf hF]
  decide

/-- Settles O52: a selection looks for NaNs and then picks by the patterns' places in the order with -0 below +0. -/
theorem minMaxSelect : Obligations.MinMaxSelect := by
  intro w F hF a b lo hi minusZero
  refine ⟨fun ha hb => ⟨select_of_nans _ hF ha hb, select_of_nans _ hF ha hb⟩, fun ha hb => ?_, fun hlt => ?_, ?_,
    select_cases hF _ a b, min_max_self hF, fun hs => ?_, fun hs => ?_⟩
  · exact ⟨select_of_nan_left _ ha hb, select_of_nan_left _ ha hb, select_of_nan_right _ hb ha,
      select_of_nan_right _ hb ha⟩
  · have hab := isNaN_eq_false_of_datumLt hlt
    have ha : ¬ IsNaN F a := by rw [isNaN_iff, hab.1]; exact Bool.false_ne_true
    have hb : ¬ IsNaN F b := by rw [isNaN_iff, hab.2]; exact Bool.false_ne_true
    exact min_max_of_lt ha hb (minMaxKey_lt_of_numericKey_lt ((datumLt_iff hF ha hb).mp hlt))
  · obtain ⟨hmin, hmax, hmin', hmax'⟩ :=
      min_max_of_lt (not_isNaN_zeroOf hF true) (not_isNaN_zeroOf hF false) (minMaxKey_zeroOf_lt hF)
    rw [zeroOf_true] at hmin hmax hmin' hmax'
    exact ⟨hmin, hmin', hmax, hmax'⟩
  · exact ⟨(select_flags _ hF).1 hs, (select_flags _ hF).1 hs⟩
  · exact ⟨(select_flags _ hF).2 hs, (select_flags _ hF).2 hs⟩

end Sys2Proof.Machine
end

section
/-! Exact results (42_fp_numerics.md R419 to R426, R438): what an operation computes before it rounds, by the values its operands
denote, and the results that need no rounding. -/

namespace Sys2Proof.Machine

open Sys2Proof.Spec

variable {w : Nat} {F : Fmt w} {a b c : BitVec w}

/-! ## Operations on numbers and infinities (R438) -/

/-- The result of an operation whose operands are no NaN, by its exact result. -/
def Fmt.finish (F : Fmt w) (m : RoundingMode) (exact : Exact) : BitVec w × FlagSet := F.arith m [] false exact

theorem isSNaN_eq_false {d : Datum} (h : d.isNaN = false) : d.isSNaN = false := by
  cases d with
  | nan => cases h
  | inf | fin => rfl

theorem arith_of_no_nan (m : RoundingMode) {operands : List Datum} (exact : Exact)
    (h : ∀ d ∈ operands, d.isNaN = false) : F.arith m operands false exact = F.finish m exact := by
  have hnan : operands.any Datum.isNaN = false := List.any_eq_false.mpr fun d hd => by simp [h d hd]
  have hsnan : operands.any Datum.isSNaN = false := List.any_eq_false.mpr fun d hd => by simp [isSNaN_eq_false (h d hd)]
  unfold Fmt.finish Fmt.arith
  rw [hnan, hsnan]
  rfl

section Operations

variable (m : RoundingMode) {d e f p : Datum}

section Binary

variable (ha : F.datum a = d) (hb : F.datum b = e) (hd : d.isNaN = false) (he : e.isNaN = false)

include ha hb hd he

theorem add_of_data : F.add m a b = F.finish m (exactAdd m d e) := by
  subst ha hb
  exact arith_of_no_nan m _ (by simp [hd, he])

theorem sub_of_data : F.sub m a b = F.finish m (exactAdd m d e.negate) := by
  subst ha hb
  exact arith_of_no_nan m _ (by simp [hd, he])

theorem mul_of_data : F.mul m a b = F.finish m (exactMul d e) := by
  subst ha hb
  exact arith_of_no_nan m _ (by simp [hd, he])

theorem div_of_data : F.div m a b = F.finish m (exactDiv d e) := by
  subst ha hb
  exact arith_of_no_nan m _ (by simp [hd, he])

end Binary

theorem sqrt_of_data (ha : F.datum a = d) (hd : d.isNaN = false) : F.sqrt m a = F.finish m (exactSqrt F d) := by
  subst ha
  exact arith_of_no_nan m _ (by simp [hd])

/-- Only numbers and infinities have a product, and an infinity and a zero have none (R421, R424). -/
theorem operands_of_product (hp : product d e = some p) :
    d.isNaN = false ∧ e.isNaN = false ∧ infTimesZero d e = false := by
  cases d with
  | nan => cases e <;> cases hp
  | inf =>
    cases e with
    | nan => cases hp
    | inf => exact ⟨rfl, rfl, rfl⟩
    | fin => exact ⟨rfl, rfl, decide_eq_false fun hk => by simp [product, hk] at hp⟩
  | fin =>
    cases e with
    | nan => cases hp
    | inf => exact ⟨rfl, rfl, decide_eq_false fun hk => by simp [product, hk] at hp⟩
    | fin => exact ⟨rfl, rfl, rfl⟩

/-- A fused operation whose product is not an infinity times a zero adds the exact product. -/
theorem fma_of_product (hp : product d e = some p) (hf : f.isNaN = false) :
    F.fma m d e f = F.finish m (exactAdd m p f) := by
  obtain ⟨hd, he, hiz⟩ := operands_of_product hp
  rw [Fmt.fma, hiz, exactFma, hp]
  exact arith_of_no_nan m _ (by simp [hd, he, hf])

theorem fma_of_infTimesZero (h : infTimesZero d e = true) : F.fma m d e f = (F.canonicalNaN, flagNV) := by
  unfold Fmt.fma Fmt.arith
  rw [h, if_pos rfl, ite_self]

end Operations

/-! ## Infinities, invalid operations and division by zero (R420, R421, R424 to R426) -/

/-- Adding to an infinity: the opposite infinity is invalid, and anything else leaves it (R421). -/
theorem finish_exactAdd_inf (F : Fmt w) (m : RoundingMode) (neg : Bool) :
    (∀ n, neg ≠ n → F.finish m (exactAdd m (.inf neg) (.inf n)) = (F.canonicalNaN, flagNV)) ∧
    (∀ n, neg = n → F.finish m (exactAdd m (.inf neg) (.inf n)) = (F.infinity neg, noFlags)) ∧
    ∀ n k e, F.finish m (exactAdd m (.inf neg) (.fin n k e)) = (F.infinity neg, noFlags) := by
  refine ⟨fun n h => ?_, fun n h => ?_, fun _ _ _ => rfl⟩
  · rw [exactAdd, if_neg h]
    rfl
  · rw [exactAdd, if_pos h]
    rfl

theorem product_inf_fin {k : Nat} (n1 n2 : Bool) (e : Int) (hk : k ≠ 0) :
    product (.inf n1) (.fin n2 k e) = some (.inf (n1 ^^ n2)) := if_neg hk

theorem product_fin_inf {k : Nat} (n1 n2 : Bool) (e : Int) (hk : k ≠ 0) :
    product (.fin n1 k e) (.inf n2) = some (.inf (n1 ^^ n2)) := if_neg hk

theorem exactMul_of_product {d e : Datum} {neg : Bool} (h : product d e = some (.inf neg)) :
    exactMul d e = .inf neg := by
  rw [exactMul, h]

theorem exactDiv_zero {k : Nat} (n1 n2 : Bool) (e1 e2 : Int) (hk : k ≠ 0) :
    exactDiv (.fin n1 k e1) (.fin n2 0 e2) = .divByZero (n1 ^^ n2) := by
  rw [exactDiv, if_pos rfl, if_neg hk]

/-- A fused operation whose product is infinite, by its addend with the sign the form gives it. -/
theorem fma_of_infinite_product (m : RoundingMode) {d e : Datum} {neg : Bool} (q n : Bool) (k : Nat) (z : Int)
    (hp : product d e = some (.inf neg)) :
    (F.datum c = .inf n →
      (neg ≠ (q ^^ n) → F.fma m d e ((F.datum c).negateIf q) = (F.canonicalNaN, flagNV)) ∧
      (neg = (q ^^ n) → F.fma m d e ((F.datum c).negateIf q) = (F.infinity neg, noFlags))) ∧
    (F.datum c = .fin n k z → F.fma m d e ((F.datum c).negateIf q) = (F.infinity neg, noFlags)) := by
  obtain ⟨hne, heq, hfin⟩ := finish_exactAdd_inf F m neg
  refine ⟨fun hc => ?_, fun hc => ?_⟩
  · rw [hc, Datum.negateIf_inf, fma_of_product m hp rfl]
    exact ⟨hne _, heq _⟩
  · rw [hc, Datum.negateIf_fin, fma_of_product m hp rfl]
    exact hfin _ _ _

/-- A pattern of a zero is the zero of its sign (R401). -/
theorem eq_zeroOf_of_datum (hF : IsFormat F) {neg : Bool} {e : Int} (h : F.datum b = .fin neg 0 e) :
    b = zeroOf neg := by
  obtain hlt | heq | hgt := lt_trichotomy (magnitudeOf b) F.infMag
  · obtain ⟨hs, hm, -⟩ := Datum.fin.inj ((datum_of_finite hF hlt).symm.trans h)
    have hzero : F.magValue (magnitudeOf b) = F.magValue 0 := by
      rw [magValue_zero, Fmt.magValue, hm, Nat.cast_zero, zero_mul]
    rw [← withSign_signOf_magnitudeOf b hF.width_pos, hs, (magValue_strictMono F).injective hzero]
    rfl
  · cases (datum_of_infinite hF heq).symm.trans h
  · cases (datum_of_nan hF hgt).symm.trans h

/-- Settles O46: each case is one line of the exact operations, on the data of the operands. -/
theorem invalidAndDivideByZero : Obligations.InvalidAndDivideByZero := by
  intro w F hF m a b c n1 n2 n3 m1 m2 m3 e1 e2 e3 nv inf
  refine ⟨fun ha hb => ?_, fun ha hb => ?_, fun ha hb => ?_, fun ha hb => ?_, fun ha h1 => ?_, fun ha => ?_,
    fun ha => ?_, fun ha => ?_, fun ha h1 hb => ?_, ?_⟩
  · refine ⟨div_of_data m ha hb rfl rfl, mul_of_data m ha hb rfl rfl, fun hne => ⟨?_, ?_⟩, fun heq => ⟨?_, ?_⟩⟩
    · exact (add_of_data m ha hb rfl rfl).trans ((finish_exactAdd_inf F m n1).1 _ hne)
    · exact (sub_of_data m ha hb rfl rfl).trans ((finish_exactAdd_inf F m n1).2.1 _ (Bool.eq_not_of_ne hne))
    · exact (sub_of_data m ha hb rfl rfl).trans ((finish_exactAdd_inf F m n1).1 _ (by simpa using heq))
    · exact (add_of_data m ha hb rfl rfl).trans ((finish_exactAdd_inf F m n1).2.1 _ heq)
  · exact ⟨mul_of_data m ha hb rfl rfl, mul_of_data m hb ha rfl rfl⟩
  · refine ⟨add_of_data m ha hb rfl rfl, add_of_data m hb ha rfl rfl, sub_of_data m ha hb rfl rfl,
      sub_of_data m hb ha rfl rfl, div_of_data m ha hb rfl rfl, ?_, fun h2 => ⟨?_, ?_⟩⟩
    · rw [Bool.xor_comm]
      exact div_of_data m hb ha rfl rfl
    · rw [mul_of_data m ha hb rfl rfl, exactMul_of_product (product_inf_fin n1 n2 e2 h2)]
      rfl
    · rw [Bool.xor_comm, mul_of_data m hb ha rfl rfl, exactMul_of_product (product_fin_inf n2 n1 e2 h2)]
      rfl
  · exact div_of_data m ha hb rfl rfl
  · exact (sqrt_of_data m ha rfl).trans (congrArg (F.finish m) ((if_neg h1).trans (if_pos rfl)))
  · exact sqrt_of_data m ha rfl
  · exact sqrt_of_data m ha rfl
  · exact (sqrt_of_data m ha rfl).trans (congrArg (·, noFlags) (eq_zeroOf_of_datum hF ha).symm)
  · exact (div_of_data m ha hb rfl rfl).trans (congrArg (F.finish m) (exactDiv_zero n1 n2 e1 e2 h1))
  · intro f hf product addend infinite
    refine ⟨fun ha hb => ⟨?_, ?_⟩, fun ha hb h2 => ⟨?_, ?_⟩, fun ha hb => ?_, fun ha hb hc => ?_⟩
    · rw [fusedForm_eq_fma m a b c f hf, ha, hb]
      exact fma_of_infTimesZero m ((infTimesZero_negateIf _ _ _).trans rfl)
    · rw [fusedForm_eq_fma m b a c f hf, ha, hb]
      exact fma_of_infTimesZero m ((infTimesZero_negateIf _ _ _).trans rfl)
    · rw [fusedForm_eq_fma m a b c f hf, ha, hb, Datum.negateIf_inf]
      exact fma_of_infinite_product m _ n3 m3 e3 (product_inf_fin _ n2 e2 h2)
    · rw [fusedForm_eq_fma m b a c f hf, ha, hb, Datum.negateIf_fin]
      refine fma_of_infinite_product m _ n3 m3 e3 ((product_fin_inf _ n1 e2 h2).trans ?_)
      rw [Bool.xor_right_comm]
    · rw [fusedForm_eq_fma m a b c f hf, ha, hb, Datum.negateIf_inf]
      exact fma_of_infinite_product m _ n3 m3 e3 rfl
    · rw [fusedForm_eq_fma m a b c f hf, ha, hb, hc, Datum.negateIf_fin, Datum.negateIf_inf]
      exact fma_of_product m (p := .fin _ _ _) (f := .inf _) rfl rfl

end Sys2Proof.Machine
end

section
/-! Exact results in rational numbers (42_fp_numerics.md R415, R419, R420, R438): an operation on numbers computes the sum, the
product or the quotient of the numbers its operands denote, and rounds it once unless it is zero. -/

namespace Sys2Proof.Machine

open Sys2Proof.Spec

variable {w : Nat} {F : Fmt w} {a b c : BitVec w}

/-! ## Fractions and powers of two -/

section Scale

variable {num den : Nat} (k : Int)

theorem scale_num_pos (h : 0 < num) : 0 < (scale num den k).1 := by
  cases k with
  | ofNat n =>
    rw [scale, Nat.shiftLeft_eq]
    positivity
  | negSucc n => exact h

theorem scale_den_pos (h : 0 < den) : 0 < (scale num den k).2 := by
  cases k with
  | ofNat n => exact h
  | negSucc n =>
    rw [scale, Nat.shiftLeft_eq]
    positivity

/-- Scaling multiplies the fraction by the power of two. -/
theorem scale_value (num den : Nat) (k : Int) :
    ((scale num den k).1 : ℚ) / (scale num den k).2 = num / den * 2 ^ k := by
  cases k with
  | ofNat n =>
    rw [scale, Nat.shiftLeft_eq, Int.ofNat_eq_natCast, zpow_natCast]
    push_cast
    ring
  | negSucc n =>
    rw [scale, Nat.shiftLeft_eq, zpow_negSucc]
    push_cast
    rw [div_mul_eq_div_div]
    rfl

end Scale

/-! ## The number of a datum (R401) -/

theorem ratOf_eq (neg : Bool) (k : Nat) (e : Int) : ratOf neg k e = signedValue neg (k * 2 ^ e) := mul_assoc _ _ _

theorem ratOf_eq_zero_iff {neg : Bool} {k : Nat} {e : Int} : ratOf neg k e = 0 ↔ k = 0 := by
  have hpow : (2 : ℚ) ^ e ≠ 0 := by positivity
  cases neg <;> simp [ratOf, hpow]

theorem ratOf_not (neg : Bool) (k : Nat) (e : Int) : ratOf (!neg) k e = -ratOf neg k e := by
  cases neg <;> simp [ratOf]

theorem ratOf_xor (p neg : Bool) (k : Nat) (e : Int) :
    ratOf (p ^^ neg) k e = signedValue p (ratOf neg k e) := by
  cases p with
  | false => rw [Bool.false_xor, signedValue_false]
  | true => rw [Bool.true_xor, ratOf_not, signedValue_true]

theorem ratOf_mul (n1 n2 : Bool) (m1 m2 : Nat) (e1 e2 : Int) :
    ratOf (n1 ^^ n2) (m1 * m2) (e1 + e2) = ratOf n1 m1 e1 * ratOf n2 m2 e2 := by
  rw [ratOf_eq, ratOf_eq, ratOf_eq, ← signedValue_mul, Nat.cast_mul, zpow_add₀ two_ne_zero, mul_mul_mul_comm]

theorem signedInt_value (neg : Bool) (n : Nat) : (signedInt neg n : ℚ) = signedValue neg n := by
  cases neg <;> simp [signedInt]

/-- An integer is its magnitude with its sign. -/
theorem intCast_eq_signedValue (n : Int) : (n : ℚ) = signedValue (decide (n < 0)) n.natAbs := by
  rw [Nat.cast_natAbs]
  obtain hneg | hpos := lt_or_ge n 0
  · rw [decide_eq_true hneg, abs_of_neg hneg, signedValue_true, Int.cast_neg, neg_neg]
  · rw [decide_eq_false hpos.not_gt, abs_of_nonneg hpos, signedValue_false]

/-! ## Exact results that are a number -/

/-- The exact result is the number q, which is not zero. -/
def IsReal (exact : Exact) (q : ℚ) : Prop :=
  ∃ (neg : Bool) (num den : Nat), 0 < num ∧ 0 < den ∧ q = (if neg then -1 else 1) * num / den ∧
    exact = .real neg num den

theorem rounds_of_isReal {exact : Exact} {q : ℚ} (m : RoundingMode) (h : IsReal exact q) :
    Rounds F m (F.finish m exact) q := by
  obtain ⟨neg, num, den, hnum, hden, hq, rfl⟩ := h
  exact ⟨neg, num, den, hnum, hden, hq, rfl⟩

/-- A scaled fraction of two positive numbers, as a number. -/
theorem isReal_scale (neg : Bool) {num den : Nat} (k : Int) (hnum : 0 < num) (hden : 0 < den) :
    IsReal (.real neg (scale num den k).1 (scale num den k).2) ((if neg then -1 else 1) * (num / den * 2 ^ k)) :=
  ⟨neg, _, _, scale_num_pos k hnum, scale_den_pos k hden, by rw [mul_div_assoc, scale_value], rfl⟩

theorem isReal_exactFin (neg : Bool) {k : Nat} (e : Int) (hk : k ≠ 0) :
    IsReal (exactFin neg k e) (ratOf neg k e) := by
  have h := isReal_scale neg e (Nat.pos_of_ne_zero hk) Nat.one_pos
  rwa [Nat.cast_one, div_one, ← mul_assoc, ← ratOf, ← exactFin.eq_def neg k e |>.trans (if_neg hk)] at h

theorem signedUnits_value (neg : Bool) (k : Nat) {e e0 : Int} (h : e0 ≤ e) :
    (signedUnits neg k e e0 : ℚ) * 2 ^ e0 = ratOf neg k e := by
  have hpow : (2 : ℚ) ^ e = 2 ^ (e - e0).toNat * 2 ^ e0 := by
    rw [← zpow_natCast, Int.toNat_of_nonneg (Int.sub_nonneg_of_le h), ← zpow_add₀ two_ne_zero, Int.sub_add_cancel]
  have hsigned : (signedUnits neg k e e0 : ℚ) = signedValue neg (k <<< (e - e0).toNat : Nat) := signedInt_value neg _
  rw [hsigned, ratOf_eq, hpow, Nat.shiftLeft_eq, Nat.cast_mul, Nat.cast_pow, Nat.cast_ofNat, ← mul_assoc, signedValue,
    signedValue, mul_assoc]

section Sums

variable (m : RoundingMode) {n1 n2 : Bool} {m1 m2 : Nat} {e1 e2 : Int}

/-- The sum in units of the smaller exponent's last place. -/
theorem sum_units_value (n1 n2 : Bool) (m1 m2 : Nat) (e1 e2 : Int) :
    ((signedUnits n1 m1 e1 (min e1 e2) + signedUnits n2 m2 e2 (min e1 e2) : Int) : ℚ) * 2 ^ min e1 e2 =
      ratOf n1 m1 e1 + ratOf n2 m2 e2 := by
  rw [Int.cast_add, add_mul, signedUnits_value n1 m1 (min_le_left e1 e2), signedUnits_value n2 m2 (min_le_right e1 e2)]

/-- A zero sum has the sign of its operands if both are zeros of that sign, and else the mode's (R419). -/
theorem exactAdd_of_sum_zero (h : ratOf n1 m1 e1 + ratOf n2 m2 e2 = 0) :
    exactAdd m (.fin n1 m1 e1) (.fin n2 m2 e2) =
      .zero (if m1 = 0 ∧ m2 = 0 ∧ n1 = n2 then n1 else decide (m = .rdn)) := by
  have hsum := (sum_units_value n1 n2 m1 m2 e1 e2).trans h
  rw [mul_eq_zero_iff_right (by positivity), Int.cast_eq_zero] at hsum
  rw [exactAdd]
  split
  · rfl
  · exact if_pos hsum

theorem isReal_exactAdd (h : ratOf n1 m1 e1 + ratOf n2 m2 e2 ≠ 0) :
    IsReal (exactAdd m (.fin n1 m1 e1) (.fin n2 m2 e2)) (ratOf n1 m1 e1 + ratOf n2 m2 e2) := by
  have hzeros : ¬ (m1 = 0 ∧ m2 = 0 ∧ n1 = n2) := fun ⟨h1, h2, _⟩ =>
    h (by rw [ratOf_eq_zero_iff.mpr h1, ratOf_eq_zero_iff.mpr h2, add_zero])
  have hvalue := sum_units_value n1 n2 m1 m2 e1 e2
  rw [exactAdd, if_neg hzeros]
  dsimp only
  generalize signedUnits n1 m1 e1 (min e1 e2) + signedUnits n2 m2 e2 (min e1 e2) = sum at hvalue
  have hsum : sum ≠ 0 := fun h0 => h (by rw [← hvalue, h0, Int.cast_zero, zero_mul])
  have habs : ratOf (decide (sum < 0)) sum.natAbs (min e1 e2) = (sum : ℚ) * 2 ^ min e1 e2 := by
    rw [intCast_eq_signedValue sum]
    rfl
  rw [if_neg hsum, ← hvalue, ← habs]
  exact isReal_exactFin _ _ (Int.natAbs_ne_zero.mpr hsum)

end Sums

theorem isReal_exactMul {n1 n2 : Bool} {m1 m2 : Nat} {e1 e2 : Int} (h : ratOf n1 m1 e1 * ratOf n2 m2 e2 ≠ 0) :
    IsReal (exactMul (.fin n1 m1 e1) (.fin n2 m2 e2)) (ratOf n1 m1 e1 * ratOf n2 m2 e2) := by
  rw [← ratOf_mul] at h ⊢
  exact isReal_exactFin _ _ fun h0 => h (ratOf_eq_zero_iff.mpr h0)

theorem isReal_exactDiv {n1 n2 : Bool} {m1 m2 : Nat} {e1 e2 : Int} (h1 : ratOf n1 m1 e1 ≠ 0)
    (h2 : ratOf n2 m2 e2 ≠ 0) :
    IsReal (exactDiv (.fin n1 m1 e1) (.fin n2 m2 e2)) (ratOf n1 m1 e1 / ratOf n2 m2 e2) := by
  rw [Ne, ratOf_eq_zero_iff] at h1 h2
  have h := isReal_scale (n1 ^^ n2) (e1 - e2) (Nat.pos_of_ne_zero h1) (Nat.pos_of_ne_zero h2)
  have hvalue : ratOf n1 m1 e1 / ratOf n2 m2 e2 =
      (if (n1 ^^ n2) = true then -1 else 1) * (m1 / m2 * 2 ^ (e1 - e2)) := by
    rw [ratOf_eq, ratOf_eq, ← signedValue_div, mul_div_mul_comm, ← zpow_sub₀ two_ne_zero]
    rfl
  rw [exactDiv, if_neg h2, if_neg h1, hvalue]
  exact h

/-! ## The operations -/

theorem negate_fin (neg : Bool) (k : Nat) (e : Int) : (Datum.fin neg k e).negate = .fin (!neg) k e := rfl

/-- A fused operation on numbers adds the exact product, with the signs the form gives it and its addend. -/
theorem fusedForm_of_numbers (m : RoundingMode) {n1 n2 n3 : Bool} {m1 m2 m3 : Nat} {e1 e2 e3 : Int}
    (ha : F.datum a = .fin n1 m1 e1) (hb : F.datum b = .fin n2 m2 e2) (hc : F.datum c = .fin n3 m3 e3) :
    ∀ f ∈ fusedForms F, f.1 m a b c = F.finish m
      (exactAdd m (.fin (f.2.1 ^^ n1 ^^ n2) (m1 * m2) (e1 + e2)) (.fin (f.2.2 ^^ n3) m3 e3)) := by
  intro f hf
  rw [fusedForm_eq_fma m a b c f hf, ha, hb, hc, Datum.negateIf_fin, Datum.negateIf_fin]
  exact fma_of_product m rfl rfl

theorem ratOf_product (p n1 n2 : Bool) (m1 m2 : Nat) (e1 e2 : Int) :
    ratOf (p ^^ n1 ^^ n2) (m1 * m2) (e1 + e2) = signedValue p (ratOf n1 m1 e1 * ratOf n2 m2 e2) := by
  rw [Bool.xor_assoc, ratOf_xor, ratOf_mul]

theorem finish_exactAdd_of_sum_zero (F : Fmt w) (m : RoundingMode) {n1 n2 : Bool} {m1 m2 : Nat} {e1 e2 : Int}
    (h : ratOf n1 m1 e1 + ratOf n2 m2 e2 = 0) :
    F.finish m (exactAdd m (.fin n1 m1 e1) (.fin n2 m2 e2)) =
      (if m1 = 0 ∧ m2 = 0 ∧ n1 = n2 then zeroOf n1 else zeroOf (decide (m = .rdn)), noFlags) := by
  rw [exactAdd_of_sum_zero m h, ← apply_ite zeroOf]
  rfl

/-- A finite product of a zero is the zero of its sign (R420). -/
theorem exactMul_of_zero {n1 n2 : Bool} {m1 m2 : Nat} {e1 e2 : Int} (h : m1 = 0 ∨ m2 = 0) :
    exactMul (.fin n1 m1 e1) (.fin n2 m2 e2) = .zero (n1 ^^ n2) := if_pos (Nat.mul_eq_zero.mpr h)

theorem exactDiv_of_zero {n1 n2 : Bool} {m1 m2 : Nat} {e1 e2 : Int} (h1 : m1 = 0) (h2 : m2 ≠ 0) :
    exactDiv (.fin n1 m1 e1) (.fin n2 m2 e2) = .zero (n1 ^^ n2) := by
  rw [exactDiv, if_neg h2, if_pos h1]

/-- Settles O47: an exact sum is zero exactly if the sum of the numbers is, and the operands' zeros decide its sign. -/
theorem zeroSums : Obligations.ZeroSums := by
  intro w F hF m a b c n1 n2 n3 m1 m2 m3 e1 e2 e3 ha hb x y otherwise
  have hzero (h1 : m1 = 0) : zeroOf n1 = a := (eq_zeroOf_of_datum hF (h1 ▸ ha)).symm
  refine ⟨fun h => ?_, fun h => ?_, fun h => ?_, fun h1 h2 => ?_, fun hc f hf => ?_⟩
  · rw [add_of_data m ha hb rfl rfl, finish_exactAdd_of_sum_zero F m h]
    exact congrArg (·, noFlags) (ite_congr rfl (fun hz => hzero hz.1) fun _ => rfl)
  · rw [sub_eq_add_neg, ← ratOf_not] at h
    rw [sub_of_data m ha hb rfl rfl, negate_fin, finish_exactAdd_of_sum_zero F m h]
    simp only [Bool.eq_not]
    exact congrArg (·, noFlags) (ite_congr rfl (fun hz => hzero hz.1) fun _ => rfl)
  · rw [mul_of_data m ha hb rfl rfl, exactMul_of_zero h]
    rfl
  · rw [div_of_data m ha hb rfl rfl, exactDiv_of_zero h1 h2]
    rfl
  · intro product addend h
    rw [← signedValue_eq_ite, ← signedValue_eq_ite, ← ratOf_product, ← ratOf_xor] at h
    rw [fusedForm_of_numbers m ha hb hc f hf, finish_exactAdd_of_sum_zero F m h]
    simp only [Nat.mul_eq_zero]
    rfl

/-- A fused operation on numbers rounds the sum of its product and its addend once, with the form's signs. -/
theorem rounds_fusedForm (m : RoundingMode) {n1 n2 n3 : Bool} {m1 m2 m3 : Nat} {e1 e2 e3 : Int}
    (ha : F.datum a = .fin n1 m1 e1) (hb : F.datum b = .fin n2 m2 e2) (hc : F.datum c = .fin n3 m3 e3) :
    ∀ f ∈ fusedForms F,
      signedValue f.2.1 (ratOf n1 m1 e1 * ratOf n2 m2 e2) + signedValue f.2.2 (ratOf n3 m3 e3) ≠ 0 →
      Rounds F m (f.1 m a b c)
        (signedValue f.2.1 (ratOf n1 m1 e1 * ratOf n2 m2 e2) + signedValue f.2.2 (ratOf n3 m3 e3)) := by
  intro f hf h
  rw [← ratOf_product, ← ratOf_xor] at h ⊢
  rw [fusedForm_of_numbers m ha hb hc f hf]
  exact rounds_of_isReal m (isReal_exactAdd m h)

/-- Settles O48: each operation's exact result is the number its operands' numbers give. -/
theorem finiteArithmeticRounds : Obligations.FiniteArithmeticRounds := by
  rintro w F hF m a b c x y z ⟨n1, m1, e1, ha, rfl⟩ ⟨n2, m2, e2, hb, rfl⟩ ⟨n3, m3, e3, hc, rfl⟩
  have hfused := rounds_fusedForm m ha hb hc
  simp only [fusedForms, List.forall_mem_cons, signedValue_false, signedValue_true, ← sub_eq_add_neg] at hfused
  obtain ⟨hmadd, hmsub, hnmsub, hnmadd, -⟩ := hfused
  refine ⟨fun h => ?_, fun h => ?_, fun h => ?_, fun h1 h2 => ?_, hmadd, hmsub, hnmsub, hnmadd⟩
  · rw [add_of_data m ha hb rfl rfl]
    exact rounds_of_isReal m (isReal_exactAdd m h)
  · rw [sub_eq_add_neg, ← ratOf_not] at h ⊢
    rw [sub_of_data m ha hb rfl rfl]
    exact rounds_of_isReal m (isReal_exactAdd m h)
  · rw [mul_of_data m ha hb rfl rfl]
    exact rounds_of_isReal m (isReal_exactMul h)
  · rw [div_of_data m ha hb rfl rfl]
    exact rounds_of_isReal m (isReal_exactDiv h1 h2)

end Sys2Proof.Machine
end

section
/-! Rounding to the integers (42_fp_numerics.md R406, R432, R433): a positive number between two neighbours is rounded to one of
them, and what each mode says of the choice does not depend on the grid. -/

namespace Sys2Proof.Machine

open Sys2Proof.Spec

/-! ## Numbers with a sign -/

theorem abs_signedValue (neg : Bool) (x : ℚ) : |signedValue neg x| = |x| := by
  cases neg <;> simp

theorem signedValue_sub (neg : Bool) (x y : ℚ) :
    signedValue neg x - signedValue neg y = signedValue neg (x - y) := by
  rw [signedValue, signedValue, signedValue, mul_sub]

theorem signedValue_inj {neg : Bool} {x y : ℚ} : signedValue neg x = signedValue neg y ↔ x = y := by
  cases neg <;> simp

/-! ## Rounding between two neighbours (R406) -/

/-- Whether the mode takes the upper neighbour of x; `odd` says whether the last digit of the lower one is odd. -/
def RoundsUp (m : RoundingMode) (neg : Bool) (odd : Prop) (lo x hi : ℚ) : Prop :=
  match m with
  | .rne => hi - x < x - lo ∨ (hi - x = x - lo ∧ odd)
  | .rtz => False
  | .rdn => neg = true ∧ lo < x
  | .rup => neg = false ∧ lo < x
  | .rmm => hi - x ≤ x - lo

/-- `v` is the magnitude x, which lies between the neighbours lo and hi, rounded to one of them. -/
structure RoundedTo (m : RoundingMode) (neg : Bool) (odd : Prop) (lo x hi v : ℚ) : Prop where
  lower : lo ≤ x
  upper : x < hi
  choice : (RoundsUp m neg odd lo x hi ∧ v = hi) ∨ (¬ RoundsUp m neg odd lo x hi ∧ v = lo)

namespace RoundedTo

variable {m : RoundingMode} {neg : Bool} {odd : Prop} {lo x hi v : ℚ} (h : RoundedTo m neg odd lo x hi v)

include h

theorem eq_or : v = lo ∨ v = hi := h.choice.symm.imp And.right And.right

theorem lo_le : lo ≤ v := by
  obtain rfl | rfl := h.eq_or
  · exact le_rfl
  · exact (h.lower.trans_lt h.upper).le

theorem le_of_toward (hn : ¬ Nearest m) (ha : ¬ AwayFromZero m neg) : v ≤ x := by
  obtain ⟨hup, -⟩ | ⟨-, rfl⟩ := h.choice
  · cases m with
    | rne => exact absurd (.inl rfl) hn
    | rtz => exact hup.elim
    | rdn => exact absurd (.inr ⟨rfl, hup.1⟩) ha
    | rup => exact absurd (.inl ⟨rfl, hup.1⟩) ha
    | rmm => exact absurd (.inr rfl) hn
  · exact h.lower

theorem ge_of_away (ha : AwayFromZero m neg) : x ≤ v := by
  obtain ⟨-, rfl⟩ | ⟨hup, rfl⟩ := h.choice
  · exact h.upper.le
  · obtain ⟨rfl, hneg⟩ | ⟨rfl, hneg⟩ := ha <;> exact not_lt.mp fun hlt => hup ⟨hneg, hlt⟩

/-- The lower neighbour is taken where x is it. -/
theorem eq_iff : v = x ↔ lo = x := by
  obtain ⟨hup, rfl⟩ | ⟨-, rfl⟩ := h.choice
  · refine ⟨fun hx => absurd hx h.upper.ne', fun hx => absurd hup ?_⟩
    have hlt := h.upper
    cases m <;> simp [RoundsUp, hx, not_le, hlt, hlt.ne', hlt.not_gt, sub_eq_zero]
  · exact Iff.rfl

/-- Rounding to the nearest moves by at most the distance to either neighbour. -/
theorem abs_sub_le_of_nearest (hn : Nearest m) : |v - x| ≤ x - lo ∧ |v - x| ≤ hi - x := by
  have hlo := h.lower
  have hhi := h.upper
  obtain ⟨hup, rfl⟩ | ⟨hup, rfl⟩ := h.choice
  · rw [abs_of_nonneg (by linarith)]
    obtain rfl | rfl := hn
    · exact ⟨hup.elim le_of_lt fun heq => heq.1.le, le_rfl⟩
    · exact ⟨hup, le_rfl⟩
  · rw [abs_of_nonpos (by linarith)]
    obtain rfl | rfl := hn
    · exact ⟨by linarith, by linarith [not_lt.mp fun hlt => hup (.inl hlt)]⟩
    · exact ⟨by linarith, by linarith [not_le.mp hup]⟩

/-- Of two equally near neighbours RNE takes the upper one exactly if the lower one is odd, and RMM always. -/
theorem tie (ht : hi - x = x - lo) : (m = .rne → (odd → v = hi) ∧ (¬ odd → v = lo)) ∧ (m = .rmm → v = hi) := by
  refine ⟨?_, ?_⟩
  · rintro rfl
    have hiff : RoundsUp .rne neg odd lo x hi ↔ odd := by simp [RoundsUp, ht]
    have hc := h.choice
    rw [hiff] at hc
    exact ⟨fun ho => (hc.resolve_right fun hn => hn.1 ho).2, fun ho => (hc.resolve_left fun hp => ho hp.1).2⟩
  · rintro rfl
    exact (h.choice.resolve_right fun hn => hn.1 ht.le).2

theorem abs_sub_lt : |v - x| < hi - lo := by
  have hlo := h.lower
  have hhi := h.upper
  obtain hv | hv := h.eq_or
  · rw [hv, abs_of_nonpos (by linarith)]
    linarith
  · have hne : lo ≠ x := fun he => hhi.ne (hv ▸ (h.eq_iff.mpr he).symm)
    have hlt : lo < x := lt_of_le_of_ne hlo hne
    rw [hv, abs_of_nonneg (by linarith)]
    linarith

/-- A number that moves by half the distance of its neighbours is equally near to both. -/
theorem tie_of_abs_sub (hd : 2 * |v - x| = hi - lo) : hi - x = x - lo := by
  have hlo := h.lower
  have hhi := h.upper
  obtain rfl | rfl := h.eq_or
  · rw [abs_of_nonpos (by linarith)] at hd
    linarith
  · rw [abs_of_nonneg (by linarith)] at hd
    linarith

/-- A directed mode rounds the signed number to its side. -/
theorem directed (hlo : 0 ≤ lo) :
    (m = .rtz → |signedValue neg v| ≤ |signedValue neg x|) ∧ (m = .rdn → signedValue neg v ≤ signedValue neg x) ∧
      (m = .rup → signedValue neg x ≤ signedValue neg v) := by
  refine ⟨?_, ?_, ?_⟩ <;> rintro rfl
  · have hle : v ≤ x := h.le_of_toward (by simp [Nearest]) (by simp [AwayFromZero])
    rw [abs_signedValue, abs_signedValue]
    exact abs_le_abs_of_nonneg (hlo.trans h.lo_le) hle
  · cases neg with
    | false => simpa using h.le_of_toward (by simp [Nearest]) (by simp [AwayFromZero])
    | true => simpa using h.ge_of_away (.inr ⟨rfl, rfl⟩)
  · cases neg with
    | false => simpa using h.ge_of_away (.inl ⟨rfl, rfl⟩)
    | true => simpa using h.le_of_toward (by simp [Nearest]) (by simp [AwayFromZero])

end RoundedTo

/-! ## The integer grid -/

theorem ite_succ_cases {up : Bool} {P : Prop} (q : Nat) (h : up = true ↔ P) :
    (P ∧ ((if up then q + 1 else q : Nat) : ℚ) = q + 1) ∨ (¬ P ∧ ((if up then q + 1 else q : Nat) : ℚ) = q) := by
  cases up with
  | true => exact .inl ⟨h.mp rfl, Nat.cast_succ q⟩
  | false => exact .inr ⟨fun hp => Bool.false_ne_true (h.mpr hp), rfl⟩

section

variable (num : Nat) {den : Nat} (hden : 0 < den)

include hden

/-- A fraction is its integer part and its remainder's share. -/
theorem div_eq_quot_add_rem : (num : ℚ) / den = (num / den : Nat) + (num % den : Nat) / den := by
  have hne : (den : ℚ) ≠ 0 := (Nat.cast_pos.mpr hden).ne'
  have hsum : ((den * (num / den) + num % den : Nat) : ℚ) = num := congrArg Nat.cast (Nat.div_add_mod num den)
  rw [← hsum, Nat.cast_add, Nat.cast_mul, add_div, mul_div_cancel_left₀ _ hne]

/-- `roundInt` rounds a fraction to one of the two integers next to it. -/
theorem roundedTo_roundInt (m : RoundingMode) (neg : Bool) :
    RoundedTo m neg (num / den % 2 = 1) (num / den : Nat) (num / den) ((num / den : Nat) + 1)
      (roundInt m neg num den) := by
  have hden' : (0 : ℚ) < den := Nat.cast_pos.mpr hden
  have hlt : ((num % den : Nat) : ℚ) / den < 1 := (div_lt_one hden').mpr (Nat.cast_lt.mpr (Nat.mod_lt num hden))
  have hge : (0 : ℚ) ≤ ((num % den : Nat) : ℚ) / den := by positivity
  rw [div_eq_quot_add_rem num hden]
  refine ⟨by linarith, by linarith, ?_⟩
  -- the remainder's share against one half
  have hhalf (q : ℚ) (k : Nat) :
      (q + 1 - (q + k / den) < q + k / den - q ↔ den < 2 * k) ∧
      (q + 1 - (q + k / den) = q + k / den - q ↔ 2 * k = den) ∧
      (q + 1 - (q + k / den) ≤ q + k / den - q ↔ den ≤ 2 * k) := by
    rw [add_sub_add_left_eq_sub, add_sub_cancel_left, one_sub_div hden'.ne', div_lt_div_iff_of_pos_right hden',
      div_left_inj' hden'.ne', div_le_div_iff_of_pos_right hden', sub_lt_iff_lt_add, sub_eq_iff_eq_add,
      sub_le_iff_le_add, ← two_mul]
    norm_cast
    exact ⟨Iff.rfl, eq_comm, Iff.rfl⟩
  have hzero (q : ℚ) (k : Nat) : q < q + k / den ↔ k ≠ 0 := by
    rw [lt_add_iff_pos_right, div_pos_iff_of_pos_right hden', Nat.cast_pos, Nat.pos_iff_ne_zero]
  cases m with
  | rne => exact ite_succ_cases _ (by simp only [RoundsUp, hhalf, Bool.or_eq_true, Bool.and_eq_true, decide_eq_true_iff,
    gt_iff_lt])
  | rtz => exact ite_succ_cases _ (iff_of_false Bool.false_ne_true id)
  | rdn => exact ite_succ_cases _ (by simp [RoundsUp, hzero])
  | rup => exact ite_succ_cases _ (by simp [RoundsUp, hzero])
  | rmm => exact ite_succ_cases _ (by simp only [RoundsUp, hhalf, decide_eq_true_iff, ge_iff_le])

theorem inexactInt_iff : inexactInt num den = true ↔ ((num / den : Nat) : ℚ) ≠ num / den := by
  have hden' : (den : ℚ) ≠ 0 := (Nat.cast_pos.mpr hden).ne'
  rw [div_eq_quot_add_rem num hden, Ne, left_eq_add, div_eq_zero_iff, Nat.cast_eq_zero, or_iff_left hden', inexactInt,
    decide_eq_true_iff]

end

/-! ## Float to integer (R432) -/

variable {w : Nat} {F : Fmt w} {b : BitVec w}

theorem IntType.lo_le_hi (t : IntType) : t.lo ≤ t.hi := by
  cases t <;> decide

section

variable (t : IntType) (m : RoundingMode)

theorem toInt_of_nan {q : Bool} (h : F.datum b = .nan q) : F.toInt t m b = (t.toWord t.hi, flagNV) := by
  rw [Fmt.toInt, h]

theorem toInt_of_inf {neg : Bool} (h : F.datum b = .inf neg) :
    F.toInt t m b = (t.toWord (if neg then t.lo else t.hi), flagNV) := by
  rw [Fmt.toInt, h]

/-- A number is rounded to an integer, which saturates at the type's bounds. -/
theorem toInt_of_fin {neg : Bool} {k : Nat} {e : Int} {n : Int} (h : F.datum b = .fin neg k e)
    (hn : n = signedInt neg (roundInt m neg (scale k 1 e).1 (scale k 1 e).2)) :
    (t.hi < n → F.toInt t m b = (t.toWord t.hi, flagNV)) ∧ (n < t.lo → F.toInt t m b = (t.toWord t.lo, flagNV)) ∧
    (t.lo ≤ n → n ≤ t.hi →
      F.toInt t m b = (t.toWord n, flagIf (inexactInt (scale k 1 e).1 (scale k 1 e).2) flagNX)) := by
  have hr : F.toInt t m b =
      if n < t.lo then (t.toWord t.lo, flagNV) else if t.hi < n then (t.toWord t.hi, flagNV)
      else (t.toWord n, flagIf (inexactInt (scale k 1 e).1 (scale k 1 e).2) flagNX) := by
    rw [Fmt.toInt, h, hn]
  rw [hr]
  exact ⟨fun hhi => by rw [if_neg (t.lo_le_hi.trans hhi.le).not_gt, if_pos hhi], fun hlo => if_pos hlo,
    fun hlo hhi => by rw [if_neg hlo.not_gt, if_neg hhi.not_gt]⟩

end

theorem emod_two_signedInt (neg : Bool) (n : Nat) : signedInt neg n % 2 = 0 ↔ n % 2 = 0 := by
  cases neg <;> simp [signedInt] <;> omega

/-- A fraction with a sign, rounded to an integer, by the mode (R406). -/
theorem signedInt_roundInt_spec (m : RoundingMode) (neg : Bool) (num : Nat) {den : Nat} (hden : 0 < den) {n : Int}
    {x : ℚ} (hn : n = signedInt neg (roundInt m neg num den)) (hx : x = signedValue neg (num / den)) :
    |(n : ℚ) - x| < 1 ∧ (m = .rtz → |(n : ℚ)| ≤ |x|) ∧ (m = .rdn → (n : ℚ) ≤ x) ∧ (m = .rup → x ≤ n) ∧
      (Nearest m → 2 * |(n : ℚ) - x| ≤ 1) ∧
      (2 * |(n : ℚ) - x| = 1 → (m = .rne → n % 2 = 0) ∧ (m = .rmm → |x| ≤ |(n : ℚ)|)) := by
  have hr := roundedTo_roundInt num hden m neg
  have hcast : (n : ℚ) = signedValue neg (roundInt m neg num den : Nat) := by rw [hn, signedInt_value]
  obtain ⟨hrtz, hrdn, hrup⟩ := hr.directed (Nat.cast_nonneg _)
  have hdist := hr.abs_sub_lt
  rw [add_sub_cancel_left] at hdist
  rw [hcast, hx, signedValue_sub, abs_signedValue]
  refine ⟨hdist, hrtz, hrdn, hrup, fun hnear => ?_, fun hhalf => ⟨fun hm => ?_, fun hm => ?_⟩⟩
  · obtain ⟨hlo, hhi⟩ := hr.abs_sub_le_of_nearest hnear
    linarith
  · obtain ⟨hodd, heven⟩ := (hr.tie (hr.tie_of_abs_sub (by rw [hhalf, add_sub_cancel_left]))).1 hm
    rw [hn, emod_two_signedInt]
    obtain hq | hq := Nat.mod_two_eq_zero_or_one (num / den)
    · rw [Nat.cast_injective (heven (by omega)), hq]
    · have hsucc : roundInt m neg num den = num / den + 1 := by exact_mod_cast hodd hq
      omega
  · have hup := (hr.tie (hr.tie_of_abs_sub (by rw [hhalf, add_sub_cancel_left]))).2 hm
    rw [abs_signedValue, abs_signedValue, hup]
    exact abs_le_abs_of_nonneg (by positivity) hr.upper.le

/-- Settles O54: the integers next to a number are those next to its fraction, and the mode picks one of them. -/
theorem floatToIntSaturates : Obligations.FloatToIntSaturates := by
  rintro w F hF m b ⟨t, lo, hi, word⟩ ht
  obtain ⟨rfl, rfl, rfl⟩ : lo = t.lo ∧ hi = t.hi ∧ word = t.toWord := by
    fin_cases ht <;> exact ⟨rfl, rfl, rfl⟩
  refine ⟨fun q hd => toInt_of_nan t m hd, fun hd => toInt_of_inf t m hd, fun hd => toInt_of_inf t m hd, ?_⟩
  rintro x ⟨neg, k, e, hd, rfl⟩
  have hden : 0 < (scale k 1 e).2 := scale_den_pos e Nat.one_pos
  have hx : ratOf neg k e = signedValue neg ((scale k 1 e).1 / (scale k 1 e).2) := by
    rw [scale_value, Nat.cast_one, div_one, ratOf, signedValue, mul_assoc]
  have hexact : (signedInt neg (roundInt m neg (scale k 1 e).1 (scale k 1 e).2) : ℚ) = ratOf neg k e ↔
      ¬ inexactInt (scale k 1 e).1 (scale k 1 e).2 = true := by
    rw [hx, signedInt_value, signedValue_inj, (roundedTo_roundInt _ hden m neg).eq_iff, inexactInt_iff _ hden, not_not]
  obtain ⟨hdist, hrtz, hrdn, hrup, hnear, htie⟩ := signedInt_roundInt_spec m neg (scale k 1 e).1 hden rfl hx
  obtain ⟨hhi, hlo, hin⟩ := toInt_of_fin t m hd rfl
  refine ⟨_, hdist, hrtz, hrdn, hrup, hnear, htie, hhi, hlo, fun h1 h2 => (hin h1 h2).trans ?_⟩
  simp only [flagIf, hexact, ite_not]

/-! ## Integer to float (R433) -/

theorem ofInt_of_zero {t : IntType} (m : RoundingMode) {v : Word} (h : t.ofWord v = 0) :
    F.ofInt t m v = (0#w, noFlags) := if_pos h

/-- An integer that is not zero is rounded once. -/
theorem rounds_ofInt {t : IntType} (m : RoundingMode) {v : Word} (h : t.ofWord v ≠ 0) :
    Rounds F m (F.ofInt t m v) (t.ofWord v) := by
  refine ⟨_, _, 1, Int.natAbs_pos.mpr h, Nat.one_pos, ?_, if_neg h⟩
  rw [Nat.cast_one, div_one]
  exact intCast_eq_signedValue _

/-- Settles O55: the operand of each type is the register's value as that type reads it. -/
theorem intToFloatRounds : Obligations.IntToFloatRounds := by
  rintro w F hF m v ⟨t, n⟩ ht
  obtain rfl : n = t.ofWord v := by fin_cases ht <;> rfl
  exact ⟨ofInt_of_zero m, rounds_ofInt m⟩

end Sys2Proof.Machine
end

section
/-! Rounding to a format (42_fp_numerics.md R406, R415 to R417): the leading exponent finds the grid, the number lies between two
neighbouring magnitudes of it, and the exponent after rounding decides overflow and underflow. -/

namespace Sys2Proof.Machine

open Sys2Proof.Spec

namespace RoundedTo

variable {m : RoundingMode} {neg : Bool} {odd : Prop} {lo x hi v : ℚ}

/-- The choice does not depend on the unit. -/
theorem mul_unit (h : RoundedTo m neg odd lo x hi v) {c : ℚ} (hc : 0 < c) :
    RoundedTo m neg odd (lo * c) (x * c) (hi * c) (v * c) := by
  have hiff : RoundsUp m neg odd (lo * c) (x * c) (hi * c) ↔ RoundsUp m neg odd lo x hi := by
    cases m <;> simp only [RoundsUp, ← sub_mul, mul_lt_mul_iff_left₀ hc, mul_le_mul_iff_left₀ hc,
      mul_left_inj' hc.ne']
  refine ⟨by gcongr; exact h.lower, by gcongr; exact h.upper, ?_⟩
  rw [hiff, mul_left_inj' hc.ne', mul_left_inj' hc.ne']
  exact h.choice

/-- Above an odd lower neighbour, the upper one is taken from the midpoint on, from the lower one on, or never. -/
theorem eq_hi_iff (h : RoundedTo m neg odd lo x hi v) (ho : odd) :
    v = hi ↔ (Nearest m ∧ hi - x ≤ x - lo) ∨ (AwayFromZero m neg ∧ lo < x) := by
  have hup : RoundsUp m neg odd lo x hi ↔ (Nearest m ∧ hi - x ≤ x - lo) ∨ (AwayFromZero m neg ∧ lo < x) := by
    cases m <;> simp [RoundsUp, Nearest, AwayFromZero, ho, le_iff_lt_or_eq]
  rw [← hup]
  obtain ⟨hu, hv⟩ | ⟨hu, hv⟩ := h.choice
  · exact iff_of_true hv hu
  · exact iff_of_false (fun he => (h.lower.trans_lt h.upper).ne (hv ▸ he)) hu

end RoundedTo

section Exponents

variable {num den : Nat}

/-! ## The leading exponent -/

theorem two_pow_log2_bounds {n : Nat} (h : 0 < n) :
    (2 : ℚ) ^ (n.log2 : Int) ≤ n ∧ (n : ℚ) < 2 ^ ((n.log2 : Int) + 1) := by
  rw [zpow_add_one₀ two_ne_zero, zpow_natCast, ← pow_succ]
  exact ⟨by exact_mod_cast Nat.log2_self_le h.ne', by exact_mod_cast Nat.lt_log2_self⟩

variable (hnum : 0 < num) (hden : 0 < den)

include hnum hden

/-- The leading exponent of a positive fraction is that of the power of two below it. -/
theorem leadingExp_spec :
    (2 : ℚ) ^ leadingExp num den ≤ num / den ∧ (num : ℚ) / den < 2 ^ (leadingExp num den + 1) := by
  obtain ⟨hnl, hnu⟩ := two_pow_log2_bounds hnum
  obtain ⟨hdl, hdu⟩ := two_pow_log2_bounds hden
  have hden' : (0 : ℚ) < den := Nat.cast_pos.mpr hden
  have htest (e : Int) : (scale num den (-e)).1 ≥ (scale num den (-e)).2 ↔ (2 : ℚ) ^ e ≤ num / den := by
    have hs : (0 : ℚ) < (scale num den (-e)).2 := Nat.cast_pos.mpr (scale_den_pos _ hden)
    rw [ge_iff_le, ← Nat.cast_le (α := ℚ), ← one_le_div hs, scale_value, zpow_neg, ← div_eq_mul_inv,
      one_le_div (by positivity)]
  rw [leadingExp]
  split
  next h =>
    refine ⟨(htest _).mp h, ?_⟩
    rw [div_lt_iff₀ hden']
    calc (num : ℚ) < 2 ^ ((num.log2 : Int) + 1) := hnu
      _ = 2 ^ ((num.log2 : Int) - den.log2 + 1) * 2 ^ (den.log2 : Int) := by
        rw [← zpow_add₀ two_ne_zero]
        congr 1
        ring
      _ ≤ _ := by gcongr
  next h =>
    rw [sub_add_cancel]
    refine ⟨?_, not_le.mp (mt (htest _).mpr h)⟩
    rw [le_div_iff₀ hden']
    calc (2 : ℚ) ^ ((num.log2 : Int) - den.log2 - 1) * den
        ≤ 2 ^ ((num.log2 : Int) - den.log2 - 1) * 2 ^ ((den.log2 : Int) + 1) := by gcongr
      _ = 2 ^ (num.log2 : Int) := by
        rw [← zpow_add₀ two_ne_zero]
        congr 1
        ring
      _ ≤ num := hnl

/-! ## The exponent after rounding (R415 step 2) -/

omit hnum in
/-- A fraction below an even integer is rounded up to it from the midpoint on, from its predecessor on, or never. -/
theorem roundInt_eq_iff (m : RoundingMode) (neg : Bool) {N : Nat} (hN : N % 2 = 0) (hlt : (num : ℚ) / den < N) :
    roundInt m neg num den = N ↔ (Nearest m ∧ (N : ℚ) - 1 / 2 ≤ num / den) ∨
      (AwayFromZero m neg ∧ (N : ℚ) - 1 < num / den) := by
  have hr := roundedTo_roundInt num hden m neg
  have hqN : num / den < N := by exact_mod_cast hr.lower.trans_lt hlt
  obtain hlast | hbelow := Nat.lt_or_eq_of_le (Nat.succ_le_of_lt hqN) |>.symm
  · have hhi : (N : ℚ) = (num / den : Nat) + 1 := by rw [← hlast, Nat.cast_succ]
    have hodd : num / den % 2 = 1 := by omega
    rw [← Nat.cast_inj (R := ℚ), hhi, hr.eq_hi_iff hodd]
    refine or_congr (and_congr_right fun _ => ?_) (and_congr_right fun _ => by rw [add_sub_cancel_right])
    constructor <;> intro h <;> linarith
  · have hhi : ((num / den : Nat) : ℚ) + 1 ≤ N - 1 := by
      rw [le_sub_iff_add_le]
      exact_mod_cast hbelow
    have hupper := hr.upper
    refine iff_of_false (fun he => ?_) ?_
    · obtain hv | hv := hr.eq_or <;> rw [he] at hv <;> linarith
    · rintro (⟨-, h⟩ | ⟨-, h⟩) <;> linarith

/-- The magnitude x, rounded to p bits with no bound on the exponent, is at least `2^(k+1)`. -/
def ReachesBinade (m : RoundingMode) (neg : Bool) (p k : Int) (x : ℚ) : Prop :=
  (Nearest m ∧ (2 : ℚ) ^ (k + 1) - 2 ^ (k - p) ≤ x) ∨
    (AwayFromZero m neg ∧ (2 : ℚ) ^ (k + 1) - 2 ^ (k + 1 - p) < x) ∨ (2 : ℚ) ^ (k + 1) ≤ x

variable {w : Nat} (F : Fmt w) (m : RoundingMode) (neg : Bool)

/-- On the grid of p bits at the leading exponent, rounding carries to the next power of two exactly if x reaches it. -/
theorem roundInt_eq_two_pow_iff :
    roundInt m neg (scale num den (F.fracBits - leadingExp num den)).1
        (scale num den (F.fracBits - leadingExp num den)).2 = 2 ^ F.prec ↔
      ReachesBinade m neg F.prec (leadingExp num den) (num / den) := by
  obtain ⟨-, hhi⟩ := leadingExp_spec hnum hden
  generalize leadingExp num den = E at *
  have hpos : (0 : ℚ) < 2 ^ (F.fracBits - E : Int) := by positivity
  have hp : ((2 ^ F.prec : Nat) : ℚ) = 2 ^ (E + 1) * 2 ^ (F.fracBits - E : Int) := by
    rw [← zpow_add₀ two_ne_zero, Nat.cast_pow, ← zpow_natCast, Fmt.prec]
    congr 1
    push_cast
    ring
  have hone : (1 : ℚ) = 2 ^ (E + 1 - F.prec : Int) * 2 ^ (F.fracBits - E : Int) := by
    rw [← zpow_add₀ two_ne_zero, Fmt.prec, ← zpow_zero (2 : ℚ)]
    congr 1
    push_cast
    ring
  have hhalf : (1 / 2 : ℚ) = 2 ^ (E - F.prec : Int) * 2 ^ (F.fracBits - E : Int) := by
    rw [← zpow_add₀ two_ne_zero, Fmt.prec, one_div, ← zpow_neg_one]
    congr 1
    push_cast
    ring
  have heven : 2 ^ F.prec % 2 = 0 := by rw [Fmt.prec, Nat.pow_succ, Nat.mul_mod_left]
  have hnear : 2 ^ (E + 1) * 2 ^ (F.fracBits - E : Int) - 1 / 2 ≤ (num : ℚ) / den * 2 ^ (F.fracBits - E : Int) ↔
      (2 : ℚ) ^ (E + 1) - 2 ^ (E - F.prec : Int) ≤ num / den := by
    rw [hhalf, ← sub_mul, mul_le_mul_iff_left₀ hpos]
  have haway : 2 ^ (E + 1) * 2 ^ (F.fracBits - E : Int) - 1 < (num : ℚ) / den * 2 ^ (F.fracBits - E : Int) ↔
      (2 : ℚ) ^ (E + 1) - 2 ^ (E + 1 - F.prec : Int) < num / den := by
    conv_lhs => rw [hone, ← sub_mul, mul_lt_mul_iff_left₀ hpos]
  rw [roundInt_eq_iff (scale_den_pos _ hden) m neg heven (by rw [scale_value, hp]; gcongr), scale_value, hp, hnear,
    haway, ReachesBinade, or_iff_left hhi.not_ge]

theorem roundedExp_cases :
    (roundedExp F m neg num den = leadingExp num den + 1 ∧
        ReachesBinade m neg F.prec (leadingExp num den) (num / den)) ∨
      (roundedExp F m neg num den = leadingExp num den ∧
        ¬ ReachesBinade m neg F.prec (leadingExp num den) (num / den)) := by
  rw [← roundInt_eq_two_pow_iff hnum hden F m neg, roundedExp]
  split
  next h => exact .inl ⟨rfl, h⟩
  next h => exact .inr ⟨rfl, h⟩

theorem lt_roundedExp_iff (k : Int) :
    k < roundedExp F m neg num den ↔ ReachesBinade m neg F.prec k (num / den) := by
  obtain ⟨hlo, hhi⟩ := leadingExp_spec hnum hden
  have hcases := roundedExp_cases hnum hden F m neg
  generalize leadingExp num den = E at *
  generalize (num : ℚ) / den = x at *
  obtain hlt | rfl | hgt := lt_trichotomy k E
  · have hreach : (2 : ℚ) ^ (k + 1) ≤ x := (zpow_le_zpow_right₀ one_le_two (by omega)).trans hlo
    refine iff_of_true ?_ (.inr (.inr hreach))
    obtain ⟨he, -⟩ | ⟨he, -⟩ := hcases <;> omega
  · obtain ⟨he, hr⟩ | ⟨he, hr⟩ := hcases
    · exact iff_of_true (by omega) hr
    · exact iff_of_false (by omega) hr
  · have hbelow : x < 2 ^ k := hhi.trans_le (zpow_le_zpow_right₀ one_le_two (by omega))
    have hdouble : (2 : ℚ) ^ (k + 1) = 2 ^ k + 2 ^ k := by rw [zpow_add_one₀ two_ne_zero, mul_two]
    have hstep {j : Int} (hj : j ≤ k) : (2 : ℚ) ^ k ≤ 2 ^ (k + 1) - 2 ^ j := by
      have := zpow_le_zpow_right₀ (one_le_two (α := ℚ)) hj
      linarith
    have hp : (F.prec : Int) = F.fracBits + 1 := rfl
    refine iff_of_false (by obtain ⟨he, -⟩ | ⟨he, -⟩ := hcases <;> omega) ?_
    rintro (⟨-, h⟩ | ⟨-, h⟩ | h)
    · exact ((hstep (by omega)).trans h).not_gt hbelow
    · exact ((hstep (by omega)).trans_lt h).not_gt hbelow
    · linarith [zpow_pos (two_pos (α := ℚ)) k]

end Exponents

end Sys2Proof.Machine
end

section
/-! Overflow, underflow and the rounded pattern (42_fp_numerics.md R406, R415 to R417): a result that does not overflow is the
pattern of one of the two magnitudes next to the exact one. -/

namespace Sys2Proof.Machine

open Sys2Proof.Spec

variable {w : Nat} {F : Fmt w} {m : RoundingMode} {neg : Bool} {num den : Nat}

/-! ## Modes (R406) -/

theorem not_nearest_of_away (h : AwayFromZero m neg) : ¬ Nearest m := by
  obtain ⟨rfl, -⟩ | ⟨rfl, -⟩ := h <;> simp [Nearest]

/-! ## Overflow and underflow (R415 to R417) -/

theorem round_of_overflow (h : F.bias < roundedExp F m neg num den) :
    F.round m neg num den = (F.overflow m neg, flagOF ||| flagNX) := if_pos h

theorem overflow_of_away (h : Nearest m ∨ AwayFromZero m neg) : F.overflow m neg = F.infinity neg := by
  obtain (rfl | rfl) | ⟨rfl, rfl⟩ | ⟨rfl, rfl⟩ := h <;> rfl

theorem overflow_of_toward (hn : ¬ Nearest m) (ha : ¬ AwayFromZero m neg) : F.overflow m neg = F.maxFinite neg := by
  cases m with
  | rne => exact absurd (.inl rfl) hn
  | rmm => exact absurd (.inr rfl) hn
  | rtz => rfl
  | rdn =>
    cases neg with
    | false => rfl
    | true => exact absurd (.inr ⟨rfl, rfl⟩) ha
  | rup =>
    cases neg with
    | false => exact absurd (.inl ⟨rfl, rfl⟩) ha
    | true => rfl

/-- The largest finite number is the pattern before that of the infinity. -/
theorem maxFinite_eq (hF : IsFormat F) (neg : Bool) : F.maxFinite neg = F.infinity neg - 1#w := by
  rw [infinity_eq_withSign]
  have hpos : F.infMag = F.infMag - 1 + 1 := (Nat.sub_add_cancel (infMag_pos hF)).symm
  rw [hpos, withSign, ← Nat.add_assoc, BitVec.ofNat_add _ 1, BitVec.add_sub_cancel]
  rfl

/-- The flags of a result that does not overflow. -/
def roundFlags (inexact tiny : Bool) : FlagSet := flagIf inexact flagNX ||| flagIf (tiny && inexact) flagUF

theorem roundFlags_spec (inexact tiny : Bool) :
    roundFlags inexact tiny &&& flagOF = 0#5 ∧ (roundFlags inexact tiny &&& flagNX = 0#5 ↔ inexact = false) ∧
      (roundFlags inexact tiny &&& flagUF ≠ 0#5 ↔ inexact = true ∧ tiny = true) := by
  decide +revert

theorem overflowFlags_spec :
    (flagOF ||| flagNX) &&& flagOF ≠ 0#5 ∧ ¬ ((flagOF ||| flagNX) &&& flagUF ≠ 0#5) := by
  decide

theorem precision_eq (hF : IsFormat F) : (if w = 32 then 24 else 53 : Int) = F.prec := by
  obtain ⟨rfl, hf, -⟩ | ⟨rfl, hf, -⟩ := hF <;> rw [Fmt.prec, hf] <;> rfl

theorem emax_eq (hF : IsFormat F) : (if w = 32 then 127 else 1023 : Int) = F.bias := by
  obtain ⟨rfl, -, he⟩ | ⟨rfl, -, he⟩ := hF <;> rw [Fmt.bias, he] <;> rfl

/-- A magnitude does not reach a power of two, by mode. -/
theorem not_reachesBinade_iff {p k : Int} {x : ℚ} :
    ¬ ReachesBinade m neg p k x ↔
      (Nearest m ∧ x < (2 : ℚ) ^ (k + 1) - 2 ^ (k - p)) ∨
      (AwayFromZero m neg ∧ x ≤ (2 : ℚ) ^ (k + 1) - 2 ^ (k + 1 - p)) ∨
      (¬ Nearest m ∧ ¬ AwayFromZero m neg ∧ x < (2 : ℚ) ^ (k + 1)) := by
  have hpos1 : (0 : ℚ) < 2 ^ (k - p) := by positivity
  have hpos2 : (0 : ℚ) < 2 ^ (k + 1 - p) := by positivity
  rw [ReachesBinade]
  by_cases hn : Nearest m
  · have ha : ¬ AwayFromZero m neg := fun ha => not_nearest_of_away ha hn
    simp only [hn, ha, true_and, false_and, not_true_eq_false, false_or, or_false, not_or, not_le]
    exact and_iff_left_of_imp fun h => by linarith
  · by_cases ha : AwayFromZero m neg
    · simp only [hn, ha, true_and, false_and, not_true_eq_false, and_false, false_or, or_false, not_or, not_le, not_lt]
      exact and_iff_left_of_imp fun h => by linarith
    · simp [hn, ha]

theorem round_flags_of_le (h : roundedExp F m neg num den ≤ F.bias) :
    ∃ inexact, (F.round m neg num den).2 =
      roundFlags inexact (decide (roundedExp F m neg num den < 1 - (F.bias : Int))) :=
  ⟨_, congrArg Prod.snd (if_neg h.not_gt)⟩

/-- Settles O50: OF and UF ask for the exponent after rounding, which the thresholds of each mode decide. -/
theorem overflowAndUnderflow : Obligations.OverflowAndUnderflow := by
  intro w F hF m neg num den hnum hden
  rw [precision_eq hF, emax_eq hF]
  intro r p emax x two overflows tiny
  have hover : overflows ↔ F.bias < roundedExp F m neg num den := (lt_roundedExp_iff hnum hden F m neg F.bias).symm
  have htiny : tiny ↔ roundedExp F m neg num den < 1 - (F.bias : Int) := by
    have h := not_congr (lt_roundedExp_iff hnum hden F m neg (-F.bias))
    rw [not_reachesBinade_iff, neg_add_eq_sub] at h
    exact h.symm.trans (by omega)
  rw [htiny, hover]
  obtain hlt | hle := lt_or_ge (F.bias : Int) (roundedExp F m neg num den)
  · have hr : r = (F.overflow m neg, flagOF ||| flagNX) := round_of_overflow hlt
    refine ⟨iff_of_true (by rw [hr]; exact overflowFlags_spec.1) hlt, fun _ => ⟨fun hm => ?_, fun ⟨hn, ha⟩ => ?_⟩, ?_⟩
    · rw [hr, overflow_of_away hm]
    · rw [hr, overflow_of_toward hn ha, maxFinite_eq hF]
    · exact iff_of_false (by rw [hr]; exact overflowFlags_spec.2) fun h => by omega
  · obtain ⟨inexact, hr⟩ := round_flags_of_le (m := m) (neg := neg) hle
    obtain ⟨hOF, hNX, hUF⟩ := roundFlags_spec inexact (decide (roundedExp F m neg num den < 1 - (F.bias : Int)))
    rw [← hr] at hOF hNX hUF
    refine ⟨iff_of_false (fun h => h hOF) hle.not_gt, fun h => absurd h hle.not_gt, ?_⟩
    rw [hUF, Ne, hNX, Bool.not_eq_false, decide_eq_true_iff]

end Sys2Proof.Machine
end

section
/-! The rounded pattern (42_fp_numerics.md R406, R415): a result that does not overflow is the pattern of one of the two
magnitudes next to the exact one, chosen by the mode, and a representable number is its own result. -/

namespace Sys2Proof.Machine

open Sys2Proof.Spec

variable {w : Nat} {F : Fmt w} {m : RoundingMode} {neg : Bool} {num den : Nat}

/-! ## The end of the finite magnitudes -/

theorem expOnes_eq (hF : IsFormat F) : F.expOnes = 2 * F.bias + 1 := by
  have hpow : 2 ^ F.expBits = 2 * 2 ^ (F.expBits - 1) := by
    rw [← Nat.pow_succ', Nat.succ_eq_add_one, Nat.sub_add_cancel (Nat.one_le_of_lt hF.two_le_expBits)]
  have hpos : 0 < 2 ^ (F.expBits - 1) := Nat.two_pow_pos _
  rw [Fmt.expOnes, Fmt.bias, hpow]
  omega

/-- Past the finite magnitudes stands `2^(emax+1)`. -/
theorem magValue_infMag (hF : IsFormat F) : F.magValue F.infMag = 2 ^ (F.bias + 1 : Int) := by
  have hM : F.infMag = 2 * F.bias * 2 ^ F.fracBits + 2 ^ F.fracBits := by
    rw [Fmt.infMag, expOnes_eq hF, Nat.add_mul, Nat.one_mul]
  rw [hM, magValue_add (Nat.pow_le_pow_right two_pos (Nat.le_succ _)) (.inr le_rfl), Nat.cast_pow, ← zpow_natCast,
    Nat.cast_ofNat, ← zpow_add₀ two_ne_zero, Fmt.qmin]
  congr 1
  push_cast
  ring

/-- The largest finite number is one digit of its grid below. -/
theorem magValue_pred_infMag (hF : IsFormat F) :
    F.magValue (F.infMag - 1) = 2 ^ (F.bias + 1 : Int) - 2 ^ (F.bias + 1 - F.prec : Int) := by
  have hbias := hF.fracBits_add_four_lt_bias
  have hpos : 0 < 2 ^ F.fracBits := Nat.two_pow_pos _
  have hM : F.infMag - 1 = (2 * F.bias - 1) * 2 ^ F.fracBits + (2 ^ (F.fracBits + 1) - 1) := by
    obtain ⟨k, hk⟩ : ∃ k, F.bias = k + 1 := ⟨F.bias - 1, by omega⟩
    rw [Fmt.infMag, expOnes_eq hF, hk, show 2 * (k + 1) - 1 = 2 * k + 1 by omega,
      show 2 * (k + 1) + 1 = 2 * k + 1 + 2 by omega, Nat.add_mul _ 2, Nat.pow_succ, Nat.mul_comm 2]
    omega
  have hsig : ((2 ^ (F.fracBits + 1) - 1 : Nat) : ℚ) = 2 ^ (F.prec : Int) - 1 := by
    rw [Nat.cast_sub Nat.one_le_two_pow, zpow_natCast, Fmt.prec]
    push_cast
    rfl
  have hunit : F.qmin + (2 * F.bias - 1 : Nat) = (F.bias + 1 - F.prec : Int) := by
    rw [Fmt.qmin, Fmt.prec, Nat.cast_sub (by omega)]
    push_cast
    ring
  rw [hM, magValue_add (Nat.sub_le _ _) (.inr (by rw [Nat.pow_succ]; omega)), hsig, hunit, sub_mul, one_mul,
    ← zpow_add₀ two_ne_zero, add_sub_cancel]

theorem magValue_lt_iff (hF : IsFormat F) {M : Nat} : F.magValue M < 2 ^ (F.bias + 1 : Int) ↔ M < F.infMag := by
  rw [← magValue_infMag hF, (magValue_strictMono F).lt_iff_lt]

theorem infMag_even (hF : IsFormat F) : F.infMag % 2 = 0 := mul_two_pow_fracBits_even hF _

/-! ## The neighbours (R415 step 4) -/

/-- The magnitude x rounds to the magnitude R of the format, from one of the two next to it. -/
def RoundsToMag (F : Fmt w) (m : RoundingMode) (neg : Bool) (x : ℚ) (R : Nat) : Prop :=
  ∃ M, RoundedTo m neg (M % 2 = 1) (F.magValue M) x (F.magValue (M + 1)) (F.magValue R)

theorem eq_or_succ_of_roundedTo {x : ℚ} {M R : Nat}
    (h : RoundedTo m neg (M % 2 = 1) (F.magValue M) x (F.magValue (M + 1)) (F.magValue R)) : R = M ∨ R = M + 1 :=
  h.eq_or.imp (fun he => (magValue_strictMono F).injective he) fun he => (magValue_strictMono F).injective he

/-- A magnitude that is not rounded up past the finite ones stays among them. -/
theorem lt_infMag_of_not_reachesBinade (hF : IsFormat F) {x : ℚ} {R : Nat} (h : RoundsToMag F m neg x R)
    (hx : ¬ ReachesBinade m neg F.prec F.bias x) : R < F.infMag := by
  obtain ⟨M, hr⟩ := h
  have hlt : x < 2 ^ (F.bias + 1 : Int) := not_le.mp fun hle => hx (.inr (.inr hle))
  have hM : M < F.infMag := (magValue_lt_iff hF).mp (hr.lower.trans_lt hlt)
  obtain rfl | hR := eq_or_succ_of_roundedTo hr
  · exact hM
  · refine lt_of_le_of_ne (hR ▸ hM) fun hinf => hx ?_
    have hlast : M = F.infMag - 1 := by omega
    have hodd : M % 2 = 1 := by
      have := infMag_even hF
      omega
    have hhalf : (2 : ℚ) ^ (F.bias + 1 - F.prec : Int) = 2 * 2 ^ (F.bias - F.prec : Int) := by
      rw [← zpow_one_add₀ two_ne_zero]
      congr 1
      ring
    have hup := (hr.eq_hi_iff hodd).mp (congrArg F.magValue hR)
    rw [← hR, hinf, hlast, magValue_infMag hF, magValue_pred_infMag hF] at hup
    obtain ⟨hn, hx⟩ | haway := hup
    · exact .inl ⟨hn, by linarith⟩
    · exact .inr (.inl haway)

/-- Rounding in units of a grid gives the magnitude that many units of it are. -/
theorem roundsToMag_of_grid (hF : IsFormat F) {x : ℚ} {q : Int} {j n0 n : Nat} (hq : F.qmin + j = q)
    (hr : RoundedTo m neg (n0 % 2 = 1) n0 (x * 2 ^ (-q)) (n0 + 1) n)
    (hupper : x * 2 ^ (-q) < (2 ^ (F.fracBits + 1) : Nat))
    (hlower : j = 0 ∨ ((2 ^ F.fracBits : Nat) : ℚ) ≤ x * 2 ^ (-q)) :
    RoundsToMag F m neg x (j * 2 ^ F.fracBits + n) ∧ F.magValue (j * 2 ^ F.fracBits + n) = n * 2 ^ q := by
  have hmax : n0 < 2 ^ (F.fracBits + 1) := by exact_mod_cast hr.lower.trans_lt hupper
  have hmin : j = 0 ∨ 2 ^ F.fracBits ≤ n0 := hlower.imp_right fun h => by
    have := h.trans_lt hr.upper
    exact Nat.le_of_lt_succ (by exact_mod_cast this)
  have hn : n = n0 ∨ n = n0 + 1 := by exact_mod_cast hr.eq_or
  have hvalue {k : Nat} (hk : k = n0 ∨ k = n0 + 1) : F.magValue (j * 2 ^ F.fracBits + k) = k * 2 ^ q := by
    rw [magValue_add (by omega) (by omega), hq]
  have hodd : n0 % 2 = 1 ↔ (j * 2 ^ F.fracBits + n0) % 2 = 1 := by
    have heven := mul_two_pow_fracBits_even hF j
    omega
  have hx : x * 2 ^ (-q) * 2 ^ q = x := by
    rw [mul_assoc, ← zpow_add₀ two_ne_zero, neg_add_cancel, zpow_zero, mul_one]
  refine ⟨⟨j * 2 ^ F.fracBits + n0, ?_⟩, hvalue hn⟩
  have hscaled := hr.mul_unit (c := 2 ^ q) (by positivity)
  rw [hx, propext hodd] at hscaled
  rw [hvalue (.inl rfl), hvalue hn, Nat.add_assoc, hvalue (.inr rfl), Nat.cast_succ]
  exact hscaled

section Round

variable (hnum : 0 < num) (hden : 0 < den)

include hnum hden

/-- On the grid at the exact result its magnitude has at most p bits, and p bits unless the grid is the lowest one. -/
theorem grid_of_leadingExp (F : Fmt w) {q : Int} (hq : q = max (leadingExp num den - F.fracBits) F.qmin) :
    (num : ℚ) / den * 2 ^ (-q) < (2 ^ (F.fracBits + 1) : Nat) ∧
      (q = F.qmin ∨ ((2 ^ F.fracBits : Nat) : ℚ) ≤ num / den * 2 ^ (-q)) := by
  obtain ⟨hlo, hhi⟩ := leadingExp_spec hnum hden
  generalize leadingExp num den = E at *
  have hpos : (0 : ℚ) < 2 ^ q := by positivity
  rw [zpow_neg, ← div_eq_mul_inv, div_lt_iff₀ hpos, le_div_iff₀ hpos, Nat.cast_pow, Nat.cast_pow, ← zpow_natCast,
    ← zpow_natCast, Nat.cast_ofNat, ← zpow_add₀ two_ne_zero, ← zpow_add₀ two_ne_zero]
  refine ⟨hhi.trans_le (zpow_le_zpow_right₀ one_le_two (by push_cast; omega)), ?_⟩
  obtain hlow | hhigh := le_or_gt (E - F.fracBits) F.qmin
  · exact .inl (hq.trans (max_eq_right hlow))
  · rw [max_eq_left hhigh.le] at hq
    exact .inr ((zpow_le_zpow_right₀ one_le_two (by omega)).trans hlo)

/-- A result that does not overflow is a finite magnitude next to the exact one, and inexact if it is not that one. -/
theorem round_of_le (hF : IsFormat F) (hle : roundedExp F m neg num den ≤ F.bias) :
    ∃ R inexact, RoundsToMag F m neg (num / den) R ∧ R < F.infMag ∧ (inexact = true ↔ F.magValue R ≠ num / den) ∧
      F.round m neg num den =
        (withSign neg R, roundFlags inexact (decide (roundedExp F m neg num den < 1 - (F.bias : Int)))) := by
  obtain ⟨q, hq⟩ : ∃ q, q = max (leadingExp num den - F.fracBits) F.qmin := ⟨_, rfl⟩
  obtain ⟨hupper, hlower⟩ := grid_of_leadingExp hnum hden F hq
  have hround : F.round m neg num den = _ := if_neg hle.not_gt
  rw [← hq, Nat.shiftLeft_eq] at hround
  have hden' := scale_den_pos (num := num) (-q) hden
  have hr := roundedTo_roundInt (scale num den (-q)).1 hden' m neg
  have hinexact := inexactInt_iff (scale num den (-q)).1 hden'
  rw [scale_value] at hr hinexact
  rw [Ne, ← hr.eq_iff] at hinexact
  have hplace : F.qmin + (q - F.qmin).toNat = q := by omega
  obtain ⟨hmag, hvalue⟩ := roundsToMag_of_grid hF hplace hr hupper (hlower.imp_left fun h => by omega)
  have hfinite := lt_infMag_of_not_reachesBinade hF hmag (by rw [← lt_roundedExp_iff hnum hden]; exact hle.not_gt)
  refine ⟨_, _, hmag, hfinite, ?_, hround⟩
  rw [hinexact, hvalue, Ne, ← eq_mul_inv_iff_mul_eq₀ (by positivity), ← zpow_neg]

end Round

end Sys2Proof.Machine
end

section
/-! The rounded result against all representable numbers (42_fp_numerics.md R406, R415, R433, R434): it is the neighbour the mode
asks for, and a representable number is its own result. -/

namespace Sys2Proof.Machine

open Sys2Proof.Spec

/-! ## A rounded number against the others of the grid -/

namespace RoundedTo

variable {m : RoundingMode} {neg : Bool} {odd : Prop} {lo x hi v u : ℚ} (h : RoundedTo m neg odd lo x hi v)
  (hu : u ≤ lo ∨ hi ≤ u)

include h hu

/-- No number off the gap lies between a number and what it is rounded to. -/
theorem not_between : ¬ (v < u ∧ u ≤ x) ∧ ¬ (x ≤ u ∧ u < v) := by
  have hlo := h.lower
  have hhi := h.upper
  refine ⟨fun ⟨hvu, hux⟩ => ?_, fun ⟨hxu, huv⟩ => ?_⟩
  · obtain hu | hu := hu
    · exact (hu.trans h.lo_le).not_gt hvu
    · linarith
  · obtain hu | hu := hu
    · have hx : lo = x := by linarith
      linarith [h.eq_iff.mpr hx]
    · obtain hv | hv := h.eq_or <;> linarith

theorem abs_sub_le_abs_sub (hn : Nearest m) : |v - x| ≤ |u - x| := by
  obtain ⟨hdlo, hdhi⟩ := h.abs_sub_le_of_nearest hn
  obtain hu | hu := hu
  · rw [abs_sub_comm u x]
    exact hdlo.trans (le_abs_self _ |>.trans' (by linarith))
  · exact hdhi.trans (le_abs_self _ |>.trans' (by linarith))

/-- Only where the two neighbours are equally near is another number as near as the one taken. -/
theorem tie_of_abs_sub_eq (hn : Nearest m) (hne : u ≠ v) (he : |v - x| = |u - x|) : hi - x = x - lo := by
  have hlo := h.lower
  have hhi := h.upper
  obtain ⟨hdlo, hdhi⟩ := h.abs_sub_le_of_nearest hn
  obtain hu | hu := hu
  · rw [abs_of_nonpos (a := u - x) (by linarith)] at he
    obtain rfl | rfl := h.eq_or
    · rw [abs_of_nonpos (by linarith)] at he
      exact absurd (by linarith) hne
    · rw [abs_of_nonneg (by linarith)] at he hdlo
      linarith
  · rw [abs_of_nonneg (a := u - x) (by linarith)] at he
    obtain rfl | rfl := h.eq_or
    · rw [abs_of_nonpos (by linarith)] at he hdhi
      linarith
    · rw [abs_of_nonneg (by linarith)] at he
      exact absurd (by linarith) hne

end RoundedTo

variable {w : Nat} {F : Fmt w} {m : RoundingMode} {neg : Bool} {num den : Nat}

/-! ## Representable numbers -/

/-- With either sign, a representable number is at most a magnitude or at least the next one. -/
theorem le_or_ge_of_denotes (hF : IsFormat F) {b : BitVec w} {u : ℚ} (h : Denotes F b u) (neg : Bool) (M : Nat) :
    signedValue neg u ≤ F.magValue M ∨ F.magValue (M + 1) ≤ signedValue neg u := by
  obtain ⟨-, rfl⟩ := (denotes_iff hF).mp h
  have hmono := (magValue_strictMono F).monotone
  have hle : F.magValue (magnitudeOf b) ≤ F.magValue M ∨ F.magValue (M + 1) ≤ F.magValue (magnitudeOf b) :=
    (Nat.lt_or_ge M (magnitudeOf b)).symm.imp (fun h => hmono h) fun h => hmono h
  have hneg : -F.magValue (magnitudeOf b) ≤ F.magValue M :=
    (neg_nonpos.mpr (magValue_nonneg F _)).trans (magValue_nonneg F _)
  cases neg <;> cases signOf b <;> simp [hle, hneg]

theorem signedValue_signedValue (neg : Bool) (x : ℚ) : signedValue neg (signedValue neg x) = x := by
  cases neg <;> simp

theorem signedValue_not_between {u v x : ℚ} (h : ¬ (v < u ∧ u ≤ x) ∧ ¬ (x ≤ u ∧ u < v)) :
    ¬ (signedValue neg v < signedValue neg u ∧ signedValue neg u ≤ signedValue neg x) ∧
      ¬ (signedValue neg x ≤ signedValue neg u ∧ signedValue neg u < signedValue neg v) := by
  cases neg with
  | false => simpa using h
  | true =>
    simp only [signedValue_true, neg_lt_neg_iff, neg_le_neg_iff]
    exact ⟨fun ⟨hvu, hux⟩ => h.2 ⟨hux, hvu⟩, fun ⟨hxu, huv⟩ => h.1 ⟨huv, hxu⟩⟩

theorem denotes_withSign (hF : IsFormat F) (neg : Bool) {R : Nat} (h : R < F.infMag) :
    Denotes F (withSign neg R) (signedValue neg (F.magValue R)) := by
  have hR := h.trans (infMag_lt hF)
  rw [denotes_iff hF, magnitudeOf_withSign neg hF.width_pos hR, signOf_withSign neg hF.width_pos hR]
  exact ⟨h, rfl⟩

theorem getLsbD_zero_withSign (hF : IsFormat F) (neg : Bool) {R : Nat} (h : R < F.infMag) :
    (withSign neg R : BitVec w).getLsbD 0 = false ↔ R % 2 = 0 := by
  have heven : 2 ^ (w - 1) % 2 = 0 := by
    have hwidth := hF.width
    have hfrac := hF.two_le_fracBits
    obtain ⟨k, hk⟩ : ∃ k, w - 1 = k + 1 := ⟨w - 1 - 1, by omega⟩
    rw [hk, Nat.pow_succ, Nat.mul_mod_left]
  rw [BitVec.getLsbD, Nat.testBit_zero, decide_eq_false_iff_not,
    toNat_withSign neg hF.width_pos (h.trans (infMag_lt hF))]
  split <;> omega

/-- Where RNE finds the neighbours equally near it takes the even magnitude. -/
theorem even_of_tie_of_roundedTo {x : ℚ} {M R : Nat}
    (h : RoundedTo .rne neg (M % 2 = 1) (F.magValue M) x (F.magValue (M + 1)) (F.magValue R))
    (ht : F.magValue (M + 1) - x = x - F.magValue M) : R % 2 = 0 := by
  have hinj := (magValue_strictMono F).injective
  obtain ⟨hodd, heven⟩ := (h.tie ht).1 rfl
  by_cases hM : M % 2 = 1
  · have hR := hinj (hodd hM)
    omega
  · have hR := hinj (heven hM)
    omega

/-- Settles O49: no representable number lies strictly between the neighbours, and the mode picks one of them. -/
theorem roundToFormat : Obligations.RoundToFormat := by
  intro w F hF m neg num den hnum hden r hOF x
  have hle : roundedExp F m neg num den ≤ F.bias := by
    by_contra hlt
    have hr : r = _ := round_of_overflow (not_le.mp hlt)
    rw [hr] at hOF
    exact overflowFlags_spec.1 hOF
  obtain ⟨R, inexact, ⟨M, hr⟩, hR, hinexact, hround⟩ := round_of_le hnum hden hF hle
  have hx : x = signedValue neg (num / den) := mul_div_assoc _ _ _
  have hr1 : r.1 = withSign neg R := congrArg Prod.fst hround
  have hr2 : r.2 = roundFlags inexact _ := congrArg Prod.snd hround
  have hflags := (roundFlags_spec inexact (decide (roundedExp F m neg num den < 1 - (F.bias : Int)))).2.1
  have hRw := hR.trans (infMag_lt hF)
  obtain ⟨hrtz, hrdn, hrup⟩ := hr.directed (magValue_nonneg F M)
  rw [hr1, hr2, hx]
  refine ⟨_, denotes_withSign hF neg hR, signOf_withSign neg hF.width_pos hRw, fun b u hb => ?_, hrtz, hrdn, hrup,
    fun hn b u hb => ?_, ?_⟩
  · rw [← signedValue_signedValue neg u]
    exact signedValue_not_between (hr.not_between (le_or_ge_of_denotes hF hb neg M))
  · have hu := le_or_ge_of_denotes hF hb neg M
    rw [← signedValue_signedValue neg u, signedValue_sub, signedValue_sub, abs_signedValue, abs_signedValue, Ne,
      signedValue_inj, getLsbD_zero_withSign hF neg hR, abs_signedValue, abs_signedValue]
    refine ⟨hr.abs_sub_le_abs_sub hu hn, fun hne he => ?_⟩
    have ht := hr.tie_of_abs_sub_eq hu hn hne he
    refine ⟨?_, fun hm => ?_⟩
    · rintro rfl
      exact even_of_tie_of_roundedTo hr ht
    · rw [(hr.tie ht).2 hm]
      exact abs_le_abs_of_nonneg (by positivity) hr.upper.le
  · rw [hflags, ← Bool.not_eq_true, hinexact, not_not, signedValue_inj]

end Sys2Proof.Machine
end

section
/-! Conversions between formats (42_fp_numerics.md R433, R434): a representable number is its own result, and the numbers of few
enough bits are representable. -/

namespace Sys2Proof.Machine

open Sys2Proof.Spec

variable {w v : Nat} {F : Fmt w} {G : Fmt v} {m : RoundingMode} {neg : Bool} {num den : Nat}

/-! ## Representable numbers -/

/-- A representable number is its own result, with its sign and with no flag (R415). -/
theorem round_of_magValue (hF : IsFormat F) (hnum : 0 < num) (hden : 0 < den) {R : Nat} (hR : R < F.infMag)
    (hx : (num : ℚ) / den = F.magValue R) : F.round m neg num den = (withSign neg R, noFlags) := by
  have hmono := magValue_strictMono F
  have hlast : F.magValue R ≤ 2 ^ (F.bias + 1 : Int) - 2 ^ (F.bias + 1 - F.prec : Int) :=
    magValue_pred_infMag hF ▸ hmono.monotone (Nat.le_pred_of_lt hR)
  have hle : roundedExp F m neg num den ≤ F.bias := by
    have hdigit : (2 : ℚ) ^ (F.bias - F.prec : Int) < 2 ^ (F.bias + 1 - F.prec : Int) :=
      zpow_lt_zpow_right₀ one_lt_two (by omega)
    have hpos : (0 : ℚ) < 2 ^ (F.bias + 1 - F.prec : Int) := by positivity
    rw [← not_lt, lt_roundedExp_iff hnum hden, hx]
    rintro (⟨-, h⟩ | ⟨-, h⟩ | h) <;> linarith
  obtain ⟨R', inexact, ⟨M, hr⟩, -, hinexact, hround⟩ := round_of_le (m := m) (neg := neg) hnum hden hF hle
  rw [hx] at hr hinexact
  have hM : M = R := by
    have hlo := hmono.le_iff_le.mp hr.lower
    have hhi := hmono.lt_iff_lt.mp hr.upper
    omega
  have hexact : F.magValue R' = F.magValue R := hr.eq_iff.mpr (congrArg F.magValue hM)
  have hflag : inexact = false := by
    rw [← Bool.not_eq_true, hinexact, not_not]
    exact hexact
  rw [hround, hmono.injective hexact, hflag, roundFlags, Bool.and_false]
  rfl

/-- A significand of at most p bits is representable from the lowest grid on, as far as the exponents go. -/
theorem exists_magValue_eq (hF : IsFormat F) {k : Nat} {e : Int} (hk : k < 2 ^ (F.fracBits + 1)) (hlow : F.qmin ≤ e)
    (hhigh : e + F.fracBits ≤ F.bias) : ∃ R < F.infMag, F.magValue R = k * 2 ^ e := by
  have hend : (k : ℚ) * 2 ^ e < 2 ^ (F.bias + 1 : Int) :=
    calc (k : ℚ) * 2 ^ e < (2 ^ (F.fracBits + 1) : Nat) * 2 ^ e := by gcongr
      _ = 2 ^ (F.fracBits + 1 + e : Int) := by
        rw [Nat.cast_pow, ← zpow_natCast, Nat.cast_ofNat, ← zpow_add₀ two_ne_zero, Nat.cast_succ]
      _ ≤ _ := zpow_le_zpow_right₀ one_le_two (by omega)
  suffices h : ∃ R, F.magValue R = k * 2 ^ e by
    obtain ⟨R, hR⟩ := h
    exact ⟨R, (magValue_lt_iff hF).mp (hR ▸ hend), hR⟩
  obtain ⟨j, rfl⟩ : ∃ j : Nat, e = F.qmin + j := ⟨(e - F.qmin).toNat, by omega⟩
  clear hlow hhigh hend
  induction j generalizing k with
  | zero => exact ⟨_, magValue_add (j := 0) hk.le (.inl rfl)⟩
  | succ j ih =>
    obtain hge | hlt := Nat.lt_or_ge k (2 ^ F.fracBits) |>.symm
    · exact ⟨_, magValue_add hk.le (.inr hge)⟩
    · obtain ⟨R, hR⟩ := ih (k := 2 * k) (by rw [Nat.pow_succ]; omega)
      refine ⟨R, hR.trans ?_⟩
      rw [Nat.cast_succ, ← add_assoc, zpow_add_one₀ two_ne_zero]
      push_cast
      ring

/-! ## Float to float (R434) -/

theorem ofFloat_of_nan (hF : IsFormat F) (hG : IsFormat G) {b : BitVec v} (h : IsNaN G b) :
    GivesNaN (F.ofFloat G m b) (IsSNaN G b) := by
  rw [isNaN_iff] at h
  rw [isSNaN_iff hG]
  cases hd : G.datum b with
  | nan signaling =>
    have hr : F.ofFloat G m b = (F.canonicalNaN, flagIf signaling flagNV) := by rw [Fmt.ofFloat, hd]
    rw [GivesNaN, hr, canonicalNaN_eq_canonical hF]
    exact ⟨rfl, flagIf_spec Iff.rfl⟩
  | inf | fin =>
    rw [hd] at h
    cases h

theorem ofFloat_of_inf {b : BitVec v} (h : G.datum b = .inf neg) : F.ofFloat G m b = (F.infinity neg, noFlags) := by
  rw [Fmt.ofFloat, h]

theorem ofFloat_of_zero {b : BitVec v} {e : Int} (h : G.datum b = .fin neg 0 e) :
    F.ofFloat G m b = (zeroOf neg, noFlags) := by
  rw [Fmt.ofFloat, h]
  rfl

theorem ofFloat_of_fin {b : BitVec v} {k : Nat} {e : Int} (h : G.datum b = .fin neg k e) (hk : k ≠ 0) :
    F.ofFloat G m b = F.round m neg (scale k 1 e).1 (scale k 1 e).2 := by
  rw [Fmt.ofFloat, h]
  exact if_neg hk

/-- A number that is not zero is rounded once. -/
theorem rounds_ofFloat {b : BitVec v} {x : ℚ} (h : Denotes G b x) (hx : x ≠ 0) : Rounds F m (F.ofFloat G m b) x := by
  obtain ⟨neg, k, e, hd, rfl⟩ := h
  have hk : k ≠ 0 := fun h0 => hx (ratOf_eq_zero_iff.mpr h0)
  obtain ⟨_, _, _, hnum, hden, hvalue, hexact⟩ := isReal_exactFin neg e hk
  rw [exactFin, if_neg hk] at hexact
  obtain ⟨rfl, rfl, rfl⟩ := Exact.real.inj hexact
  exact ⟨neg, _, _, hnum, hden, hvalue, ofFloat_of_fin hd hk⟩

theorem place_lt {M : Nat} (F : Fmt w) (h : M < F.infMag) : F.place M < F.expOnes := by
  have hdiv : M / 2 ^ F.fracBits < F.expOnes := Nat.div_lt_of_lt_mul (Nat.mul_comm _ _ ▸ h)
  exact (Nat.sub_le _ _).trans_lt hdiv

/-- A number of S keeps its value and its sign in D (R434). -/
theorem ofFloat_fmtS_exact {b : BitVec 32} {x : ℚ} (h : Denotes fmtS b x) :
    Denotes fmtD (fmtD.ofFloat fmtS m b).1 x ∧ (fmtD.ofFloat fmtS m b).2 = noFlags ∧
      signOf (fmtD.ofFloat fmtS m b).1 = signOf b := by
  obtain ⟨hfin, rfl⟩ := (denotes_iff isFormat_fmtS).mp h
  have hd := datum_of_finite isFormat_fmtS hfin
  have hsig := (grid_of_magnitude fmtS (magnitudeOf b)).2.1
  have hplace := place_lt fmtS hfin
  have hqS : fmtS.qmin = -149 := by decide
  have hqD : fmtD.qmin = -1074 := by decide
  have honesS : fmtS.expOnes = 255 := by decide
  have hbiasD : fmtD.bias = 1023 := by decide
  obtain ⟨R, hR, hvalue⟩ := exists_magValue_eq isFormat_fmtD (k := fmtS.sig (magnitudeOf b))
    (e := fmtS.qmin + fmtS.place (magnitudeOf b)) (hsig.trans (by decide)) (by omega)
    (by rw [hbiasD]; change _ + (52 : Int) ≤ _; omega)
  have hresult : fmtD.ofFloat fmtS m b = (withSign (signOf b) R, noFlags) := by
    by_cases h0 : fmtS.sig (magnitudeOf b) = 0
    · have hR0 : R = 0 := (magValue_strictMono fmtD).injective <| by
        rw [hvalue, h0, magValue_zero, Nat.cast_zero, zero_mul]
      rw [hR0, ofFloat_of_zero (h0 ▸ hd)]
      rfl
    · rw [ofFloat_of_fin hd h0]
      have hnum := scale_num_pos (den := 1) (fmtS.qmin + fmtS.place (magnitudeOf b)) (Nat.pos_of_ne_zero h0)
      refine round_of_magValue isFormat_fmtD hnum (scale_den_pos _ Nat.one_pos) hR ?_
      rw [scale_value, Nat.cast_one, div_one, hvalue]
  rw [hresult]
  have hsame : fmtS.magValue (magnitudeOf b) = fmtD.magValue R := hvalue.symm
  exact ⟨hsame ▸ denotes_withSign isFormat_fmtD _ hR, rfl,
    signOf_withSign _ (by decide) (hR.trans (infMag_lt isFormat_fmtD))⟩

/-! ## Integer to float (R433) -/

/-- An integer of at most p bits is its own result. -/
theorem ofInt_exact (hF : IsFormat F) {t : IntType} {v : Word} (h : (t.ofWord v).natAbs < 2 ^ (F.fracBits + 1)) :
    Denotes F (F.ofInt t m v).1 (t.ofWord v) ∧ (F.ofInt t m v).2 = noFlags := by
  have hbias := hF.fracBits_add_four_lt_bias
  obtain ⟨R, hR, hvalue⟩ := exists_magValue_eq hF (e := 0) h (by rw [Fmt.qmin]; omega) (by omega)
  rw [zpow_zero, mul_one] at hvalue
  have hsigned : (t.ofWord v : ℚ) = signedValue (decide (t.ofWord v < 0)) (F.magValue R) :=
    hvalue ▸ intCast_eq_signedValue _
  by_cases h0 : t.ofWord v = 0
  · have hzero := denotes_withSign hF false (infMag_pos hF)
    rw [magValue_zero, signedValue_false] at hzero
    rw [ofInt_of_zero m h0, h0, Int.cast_zero]
    exact ⟨hzero, rfl⟩
  · have hx : ((t.ofWord v).natAbs : ℚ) / (1 : Nat) = F.magValue R := by rw [Nat.cast_one, div_one, hvalue]
    have hresult : F.ofInt t m v = (withSign (decide (t.ofWord v < 0)) R, noFlags) :=
      (if_neg h0).trans (round_of_magValue hF (Int.natAbs_pos.mpr h0) Nat.one_pos hR hx)
    rw [hresult, hsigned]
    exact ⟨denotes_withSign hF _ hR, rfl⟩

/-- Settles O56: 32-bit integers and the numbers of S have few enough bits for D, and a number of D is rounded once. -/
theorem conversionValues : Obligations.ConversionValues := by
  intro m v b d wide narrow
  have hW : (IntType.w.ofWord v).natAbs < 2 ^ 53 := by
    have := (low32 v).isLt
    change (low32 v).toInt.natAbs < 2 ^ 53
    rw [BitVec.toInt]
    split <;> omega
  have hWU : (IntType.wu.ofWord v).natAbs < 2 ^ 53 := by
    have := (low32 v).isLt
    change (low32 v).toNat < 2 ^ 53
    omega
  refine ⟨ofInt_exact isFormat_fmtD hW, ?_, fun x => ofFloat_fmtS_exact, fun neg => ofFloat_of_inf,
    ofFloat_of_nan isFormat_fmtD isFormat_fmtS, fun x => rounds_ofFloat, fun neg e => ofFloat_of_zero,
    fun neg => ofFloat_of_inf, ofFloat_of_nan isFormat_fmtS isFormat_fmtD⟩
  exact ofInt_exact isFormat_fmtD hWU

end Sys2Proof.Machine
end

section
/-! The square root (42_fp_numerics.md R426): the fraction that stands for a root lies on the root's side of every number a grid of
more digits holds, so it rounds as the root does. -/

namespace Sys2Proof.Machine

open Sys2Proof.Spec

/-! ## The integer square root -/

theorem isqrtFrom_spec {n k c : Nat} (hlo : c * c ≤ n) (hhi : n < (c + 2 ^ k) * (c + 2 ^ k)) :
    isqrtFrom n k c * isqrtFrom n k c ≤ n ∧ n < (isqrtFrom n k c + 1) * (isqrtFrom n k c + 1) := by
  induction k generalizing c with
  | zero => exact ⟨hlo, hhi⟩
  | succ k ih =>
    rw [isqrtFrom]
    split
    next h => exact ih h (by rwa [Nat.add_assoc, ← Nat.two_mul, ← Nat.pow_succ'])
    next h => exact ih hlo (Nat.lt_of_not_le h)

theorem isqrt_spec (n : Nat) : isqrt n * isqrt n ≤ n ∧ n < (isqrt n + 1) * (isqrt n + 1) := by
  refine isqrtFrom_spec (Nat.zero_le n) ?_
  rw [Nat.zero_add, ← Nat.pow_add]
  exact Nat.lt_log2_self.trans_le (Nat.pow_le_pow_right two_pos (by omega))

/-! ## A fraction that stands for a root -/

/-- `y` lies on the side of `c` on which the root of x lies. -/
def StandsForRoot (x y c : ℚ) : Prop := (c ≤ y ↔ c ^ 2 ≤ x) ∧ (y ≤ c ↔ x ≤ c ^ 2)

/-- Half a unit past the integer root, where that is not exact, stands for the root against every integer. -/
theorem standsForRoot_isqrt (n j : Nat) :
    StandsForRoot n (if isqrt n * isqrt n = n then (isqrt n : ℚ) else (2 * isqrt n + 1 : Nat) / 2) j := by
  obtain ⟨hlo, hhi⟩ := isqrt_spec n
  generalize isqrt n = s at *
  have hsq : ((j : ℚ) ^ 2 ≤ n ↔ j * j ≤ n) ∧ ((n : ℚ) ≤ j ^ 2 ↔ n ≤ j * j) := by
    rw [pow_two]
    norm_cast
  rw [StandsForRoot, hsq.1, hsq.2]
  split
  next h =>
    rw [Nat.cast_le, Nat.cast_le, ← h]
    exact ⟨Nat.mul_self_le_mul_self_iff.symm, Nat.mul_self_le_mul_self_iff.symm⟩
  next h =>
    have hle : (j : ℚ) ≤ (2 * s + 1 : Nat) / 2 ↔ j ≤ s := by
      rw [le_div_iff₀ two_pos]
      norm_cast
      omega
    have hge : ((2 * s + 1 : Nat) : ℚ) / 2 ≤ j ↔ s + 1 ≤ j := by
      rw [div_le_iff₀ two_pos]
      norm_cast
      omega
    rw [hle, hge]
    obtain hjs | hsj := Nat.lt_or_ge s j
    · have hmul := Nat.mul_self_le_mul_self (show s + 1 ≤ j from hjs)
      exact ⟨iff_of_false (by omega) (by omega), iff_of_true hjs (by omega)⟩
    · have hmul := Nat.mul_self_le_mul_self hsj
      exact ⟨iff_of_true hsj (by omega), iff_of_false (by omega) (by omega)⟩

theorem StandsForRoot.mul_unit {x y c u : ℚ} (h : StandsForRoot x y c) (hu : 0 < u) :
    StandsForRoot (x * u ^ 2) (y * u) (c * u) := by
  rw [StandsForRoot, mul_pow, mul_le_mul_iff_left₀ hu, mul_le_mul_iff_left₀ hu, mul_le_mul_iff_left₀ (by positivity),
    mul_le_mul_iff_left₀ (by positivity)]
  exact h

/-- The fraction of `sqrtFraction` is at least `2^k` of its units, and stands for the root against every multiple of one. -/
theorem sqrtFraction_spec (k : Nat) {n : Nat} (e : Int) (hn : 0 < n) :
    0 < (sqrtFraction k n e).1 ∧ 0 < (sqrtFraction k n e).2 ∧
      ∃ u : Int, (2 : ℚ) ^ (k + u) ≤ (sqrtFraction k n e).1 / (sqrtFraction k n e).2 ∧
        ∀ j : Nat, StandsForRoot (n * 2 ^ e) ((sqrtFraction k n e).1 / (sqrtFraction k n e).2) (j * 2 ^ u) := by
  obtain ⟨n0, hn0⟩ : ∃ n0, n0 = if e % 2 = 0 then n else 2 * n := ⟨_, rfl⟩
  obtain ⟨N, hN⟩ : ∃ N, N = n0 <<< (2 * k) := ⟨_, rfl⟩
  obtain ⟨u, hu⟩ : ∃ u : Int, u = (e - e % 2) / 2 - k := ⟨_, rfl⟩
  have hfraction : sqrtFraction k n e =
      if isqrt N * isqrt N = N then scale (isqrt N) 1 u else scale (2 * isqrt N + 1) 2 u := by
    rw [hN, hn0, hu]
    rfl
  have hn0pos : 0 < n0 := by rw [hn0]; split <;> omega
  have hNge : 2 ^ k * 2 ^ k ≤ N := by
    rw [hN, Nat.shiftLeft_eq, Nat.two_mul, Nat.pow_add]
    exact Nat.le_mul_of_pos_left _ hn0pos
  have hroot : 0 < isqrt N := Nat.pos_of_ne_zero fun h0 => by
    have hlt := (isqrt_spec N).2
    have hpow := Nat.mul_pos (Nat.two_pow_pos k) (Nat.two_pow_pos k)
    rw [h0] at hlt
    omega
  have heven : (n : ℚ) * 2 ^ e = n0 * 2 ^ (e - e % 2) := by
    rw [hn0]
    split
    next h => rw [h, sub_zero]
    next h =>
      rw [Int.emod_two_ne_zero.mp h, zpow_sub_one₀ two_ne_zero]
      push_cast
      ring
  have hx : (n : ℚ) * 2 ^ e = N * (2 ^ u) ^ 2 := by
    have hunits : e - e % 2 = (2 * k : Nat) + u * 2 := by omega
    rw [heven, hunits, zpow_add₀ two_ne_zero, zpow_natCast, zpow_mul, hN, Nat.shiftLeft_eq, Nat.cast_mul, Nat.cast_pow,
      mul_assoc]
    rfl
  have hy : ((sqrtFraction k n e).1 : ℚ) / (sqrtFraction k n e).2 =
      (if isqrt N * isqrt N = N then (isqrt N : ℚ) else (2 * isqrt N + 1 : Nat) / 2) * 2 ^ u := by
    rw [hfraction]
    split
    · rw [scale_value, Nat.cast_one, div_one]
    · rw [scale_value, Nat.cast_ofNat]
  have hstands (j : Nat) :
      StandsForRoot (n * 2 ^ e) ((sqrtFraction k n e).1 / (sqrtFraction k n e).2) (j * 2 ^ u) := by
    rw [hx, hy]
    exact (standsForRoot_isqrt N j).mul_unit (by positivity)
  refine ⟨?_, ?_, u, ?_, hstands⟩
  · rw [hfraction]
    split
    · exact scale_num_pos u hroot
    · exact scale_num_pos u (Nat.succ_pos _)
  · rw [hfraction]
    split
    · exact scale_den_pos u Nat.one_pos
    · exact scale_den_pos u Nat.two_pos
  · have hk := (hstands (2 ^ k)).1.mpr (by
      rw [hx, mul_pow, pow_two ((2 ^ k : Nat) : ℚ)]
      gcongr
      exact_mod_cast hNge)
    rwa [zpow_add₀ two_ne_zero, zpow_natCast, ← Nat.cast_ofNat, ← Nat.cast_pow]

/-! ## Rounding a fraction that stands for a root -/

section Rounding

variable {m : RoundingMode} {odd : Prop} {lo y hi v x u : ℚ} (h : RoundedTo m false odd lo y hi v)
  (hlo : StandsForRoot x y lo) (hhi : StandsForRoot x y hi)

include h hlo hhi

theorem standsForRoot_of_roundedTo : StandsForRoot x y v := by
  obtain rfl | rfl := h.eq_or
  · exact hlo
  · exact hhi

/-- The rounded number is the root itself exactly if it is the fraction. -/
theorem sq_eq_iff_of_roundedTo : v * v = x ↔ v = y := by
  obtain ⟨hle, hge⟩ := standsForRoot_of_roundedTo h hlo hhi
  rw [← pow_two, le_antisymm_iff, le_antisymm_iff, hle, hge]

variable (hu : u ≤ lo ∨ hi ≤ u)

include hu

/-- Rounded down, it is the largest number whose square is at most x. -/
theorem root_of_toward (hpos : 0 ≤ lo) (hv : v ≤ y) : v * v ≤ x ∧ (u * u ≤ x → u ≤ v) := by
  rw [← pow_two, ← pow_two]
  refine ⟨(standsForRoot_of_roundedTo h hlo hhi).1.mp hv, fun hsq => ?_⟩
  obtain hu | hu := hu
  · exact hu.trans h.lo_le
  · have hhi0 : 0 ≤ hi := hpos.trans (h.lower.trans h.upper.le)
    exact absurd (hhi.1.mpr ((pow_le_pow_left₀ hhi0 hu 2).trans hsq)) h.upper.not_ge

/-- Rounded up, it is the least number whose square is at least x. -/
theorem root_of_away (hu0 : 0 < u) (hv : y ≤ v) : x ≤ v * v ∧ (x ≤ u * u → v ≤ u) := by
  rw [← pow_two, ← pow_two]
  refine ⟨(standsForRoot_of_roundedTo h hlo hhi).2.mp hv, fun hsq => ?_⟩
  obtain hu | hu := hu
  · have hy : y ≤ lo := hlo.2.mpr (hsq.trans (pow_le_pow_left₀ hu0.le hu 2))
    have hv : v = y := h.eq_iff.mpr (h.lower.antisymm hy)
    have hlou : lo ≤ u := by
      refine le_of_sq_le_sq ?_ hu0.le
      exact (hlo.1.mp h.lower).trans hsq
    rw [hv]
    exact hy.trans hlou
  · exact (h.eq_or.elim (fun hv => hv.le.trans (h.lower.trans h.upper.le)) fun hv => hv.le).trans hu

/-- Rounded to the nearest, the root lies on its side of the midpoint with any other number. -/
theorem root_of_nearest (hpos : 0 ≤ lo) (hu0 : 0 < u) (hmid : StandsForRoot x y ((lo + hi) / 2)) (hn : Nearest m) :
    (u < v → ((u + v) / 2) ^ 2 ≤ x) ∧ (v < u → x ≤ ((u + v) / 2) ^ 2) := by
  obtain ⟨hdlo, hdhi⟩ := h.abs_sub_le_of_nearest hn
  have hlower := h.lower
  have hupper := h.upper
  constructor <;> intro huv
  · have hulo : u ≤ lo := hu.resolve_right fun hge => by obtain hv | hv := h.eq_or <;> linarith
    obtain ⟨c, hc, hcy, hle⟩ : ∃ c, StandsForRoot x y c ∧ c ≤ y ∧ (u + v) / 2 ≤ c := by
      obtain rfl | rfl := h.eq_or
      · exact ⟨v, hlo, hlower, by linarith⟩
      · rw [abs_of_nonneg (by linarith)] at hdlo
        exact ⟨_, hmid, by linarith, by linarith⟩
    have hnonneg : 0 ≤ (u + v) / 2 := by linarith [h.lo_le]
    exact (pow_le_pow_left₀ hnonneg hle 2).trans (hc.1.mp hcy)
  · have huhi : hi ≤ u := hu.resolve_left fun hle => by linarith [h.lo_le]
    obtain ⟨c, hc, hyc, hle⟩ : ∃ c, StandsForRoot x y c ∧ y ≤ c ∧ c ≤ (u + v) / 2 := by
      obtain rfl | rfl := h.eq_or
      · rw [abs_of_nonpos (by linarith)] at hdhi
        exact ⟨_, hmid, by linarith, by linarith⟩
      · exact ⟨v, hhi, hupper.le, by linarith⟩
    have hnonneg : 0 ≤ c := by linarith
    exact (hc.2.mp hyc).trans (pow_le_pow_left₀ hnonneg hle 2)

end Rounding

/-! ## The result of FSQRT (R426) -/

variable {w : Nat} {F : Fmt w} {m : RoundingMode}

/-- A multiple of a power of two is one of any smaller power. -/
theorem exists_units (t : Nat) {i u : Int} (h : u ≤ i) : ∃ j : Nat, (t : ℚ) * 2 ^ i = j * 2 ^ u := by
  refine ⟨t * 2 ^ (i - u).toNat, ?_⟩
  rw [Nat.cast_mul, Nat.cast_pow, mul_assoc, ← zpow_natCast, Int.toNat_of_nonneg (by omega), Nat.cast_ofNat,
    ← zpow_add₀ two_ne_zero, sub_add_cancel]

section Root

variable {x y : ℚ} {u : Int} (hstands : ∀ j : Nat, StandsForRoot x y (j * 2 ^ u))

include hstands

/-- Against numbers of p + 1 bits about the root the fraction stands for it, since it has more bits. -/
theorem standsForRoot_neighbours {M : Nat} (hbits : (2 : ℚ) ^ (F.prec + 2 + u : Int) ≤ y)
    (hM : y < F.magValue (M + 1)) :
    StandsForRoot x y (F.magValue M) ∧ StandsForRoot x y (F.magValue (M + 1)) ∧
      StandsForRoot x y ((F.magValue M + F.magValue (M + 1)) / 2) := by
  obtain ⟨hgrid, hsig, hplace⟩ := grid_of_magnitude F M
  have hnext : F.magValue (M + 1) = (F.sig M + 1 : Nat) * 2 ^ (F.qmin + F.place M) := by
    conv_lhs => rw [hgrid, Nat.add_assoc]
    exact magValue_add hsig (hplace.imp_right fun h => h.trans (Nat.le_succ _))
  have hfiner : u ≤ F.qmin + F.place M - 1 := by
    have hlt : (2 : ℚ) ^ (F.prec + 2 + u : Int) < 2 ^ (F.prec + (F.qmin + F.place M) : Int) := by
      refine (hbits.trans_lt hM).trans_le ?_
      rw [hnext, zpow_add₀ two_ne_zero (F.prec : Int), zpow_natCast]
      gcongr
      exact_mod_cast hsig
    have := (zpow_lt_zpow_iff_right₀ one_lt_two).mp hlt
    omega
  have hmid : (F.magValue M + F.magValue (M + 1)) / 2 = (2 * F.sig M + 1 : Nat) * 2 ^ (F.qmin + F.place M - 1) := by
    rw [hnext, Fmt.magValue, zpow_sub_one₀ two_ne_zero]
    push_cast
    ring
  obtain ⟨jlo, hjlo⟩ := exists_units (F.sig M) (show u ≤ F.qmin + F.place M by omega)
  obtain ⟨jhi, hjhi⟩ := exists_units (F.sig M + 1) (show u ≤ F.qmin + F.place M by omega)
  obtain ⟨jmid, hjmid⟩ := exists_units (2 * F.sig M + 1) hfiner
  rw [hmid, hnext, Fmt.magValue, hjlo, hjhi, hjmid]
  exact ⟨hstands _, hstands _, hstands _⟩

/-- The exponent of a root is far inside the format's range. -/
theorem roundedExp_of_root (hF : IsFormat F) {num den : Nat} (hnum : 0 < num) (hden : 0 < den)
    (hy : (num : ℚ) / den = y) (hbits : (2 : ℚ) ^ (F.prec + 2 + u : Int) ≤ y) (hlow : (2 : ℚ) ^ F.qmin ≤ x)
    (hhigh : x < 2 ^ (F.bias + 1 : Int)) :
    1 - (F.bias : Int) ≤ roundedExp F m false num den ∧ roundedExp F m false num den ≤ F.bias := by
  obtain ⟨hlo, hhi⟩ := leadingExp_spec hnum hden
  have hcases := roundedExp_cases hnum hden F m false
  have hbias := hF.fracBits_add_four_lt_bias
  generalize leadingExp num den = E at *
  rw [hy] at hlo hhi
  have hbelow : (F.prec + 2 + u : Int) < E + 1 := (zpow_lt_zpow_iff_right₀ one_lt_two).mp (hbits.trans_lt hhi)
  have hpow {k : Int} (hk : u ≤ k) : (2 : ℚ) ^ k ≤ y ↔ (2 : ℚ) ^ (k * 2) ≤ x := by
    obtain ⟨j, hj⟩ := exists_units 1 hk
    rw [Nat.cast_one, one_mul] at hj
    rw [zpow_mul, hj]
    exact (hstands j).1
  have hupper : E * 2 < F.bias + 1 :=
    (zpow_lt_zpow_iff_right₀ one_lt_two).mp (((hpow (by omega)).mp hlo).trans_lt hhigh)
  have hlower : F.qmin < (E + 1) * 2 :=
    (zpow_lt_zpow_iff_right₀ one_lt_two).mp (hlow.trans_lt (not_le.mp (mt (hpow (by omega)).mpr hhi.not_ge)))
  rw [Fmt.qmin] at hlower
  obtain ⟨he, -⟩ | ⟨he, -⟩ := hcases <;> omega

end Root

theorem sqrt_of_positive {a : BitVec w} {k : Nat} {e : Int} (hd : F.datum a = .fin false k e) (hk : k ≠ 0) :
    F.sqrt m a = F.round m false (sqrtFraction (F.prec + 2) k e).1 (sqrtFraction (F.prec + 2) k e).2 := by
  rw [sqrt_of_data m hd rfl, exactSqrt, if_neg hk]
  rfl

theorem magValue_one (F : Fmt w) : F.magValue 1 = 2 ^ F.qmin := by
  have h := magValue_add (F := F) (j := 0) (n := 1) Nat.one_le_two_pow (.inl rfl)
  simpa using h

/-- A positive number is at least the smallest subnormal one. -/
theorem two_pow_qmin_le {M : Nat} (h : 0 < F.magValue M) : (2 : ℚ) ^ F.qmin ≤ F.magValue M := by
  have hM : 0 < M := Nat.pos_of_ne_zero fun h0 => by
    rw [h0, magValue_zero] at h
    exact h.false
  exact magValue_one F ▸ (magValue_strictMono F).monotone hM

/-- The root of a number of the format is above the smallest subnormal number. -/
theorem pos_of_root_lt (hF : IsFormat F) {x y : ℚ} {M : Nat} (hlow : (2 : ℚ) ^ F.qmin ≤ x)
    (hlt : y < F.magValue (M + 1)) (hhi : StandsForRoot x y (F.magValue (M + 1))) : 0 < M := by
  have hbias := hF.fracBits_add_four_lt_bias
  refine Nat.pos_of_ne_zero fun h0 => ?_
  rw [h0, Nat.zero_add, magValue_one] at hlt hhi
  have hsq : x < ((2 : ℚ) ^ F.qmin) ^ 2 := not_le.mp (mt hhi.1.mpr hlt.not_ge)
  have hsmall : (2 : ℚ) ^ F.qmin ≤ 1 := zpow_le_one_of_nonpos₀ one_le_two (by rw [Fmt.qmin]; omega)
  have hpos : (0 : ℚ) < 2 ^ F.qmin := by positivity
  nlinarith

theorem roundFlags_of_not_tiny (inexact : Bool) :
    (roundFlags inexact false = noFlags ∨ roundFlags inexact false = flagNX) ∧
      (roundFlags inexact false = noFlags ↔ inexact = false) := by
  decide +revert

/-- A positive number's root, rounded: one of the two magnitudes next to the fraction that stands for the root. -/
theorem exists_root_rounding (hF : IsFormat F) {a : BitVec w} {x : ℚ} (ha : Denotes F a x) (hx : 0 < x) :
    ∃ y M R inexact, F.sqrt m a = (withSign false R, roundFlags inexact false) ∧ R < F.infMag ∧ 0 < F.magValue M ∧
      (inexact = true ↔ F.magValue R ≠ y) ∧
      RoundedTo m false (M % 2 = 1) (F.magValue M) y (F.magValue (M + 1)) (F.magValue R) ∧
      StandsForRoot x y (F.magValue M) ∧ StandsForRoot x y (F.magValue (M + 1)) ∧
      StandsForRoot x y ((F.magValue M + F.magValue (M + 1)) / 2) := by
  obtain ⟨hfin, hvalue⟩ := (denotes_iff hF).mp ha
  have hsign : signOf a = false := by
    rw [← Bool.not_eq_true]
    intro hneg
    rw [hneg, signedValue_true] at hvalue
    linarith [magValue_nonneg F (magnitudeOf a)]
  have hd := datum_of_finite hF hfin
  rw [hsign] at hd
  rw [hsign, signedValue_false] at hvalue
  have hsig : F.sig (magnitudeOf a) ≠ 0 := fun h0 => by
    rw [hvalue, Fmt.magValue, h0, Nat.cast_zero, zero_mul] at hx
    exact hx.false
  have hlow : (2 : ℚ) ^ F.qmin ≤ x := hvalue ▸ two_pow_qmin_le (hvalue ▸ hx)
  have hhigh : x < 2 ^ (F.bias + 1 : Int) := hvalue ▸ (magValue_lt_iff hF).mpr hfin
  have hr := sqrt_of_positive (m := m) hd hsig
  obtain ⟨hnum, hden, u, hbits, hstands⟩ :=
    sqrtFraction_spec (F.prec + 2) (F.qmin + F.place (magnitudeOf a)) (Nat.pos_of_ne_zero hsig)
  rw [← Fmt.magValue, ← hvalue] at hstands
  generalize sqrtFraction (F.prec + 2) (F.sig (magnitudeOf a)) (F.qmin + F.place (magnitudeOf a)) = root at *
  obtain ⟨hexpLow, hexpHigh⟩ := roundedExp_of_root (m := m) hstands hF hnum hden rfl hbits hlow hhigh
  obtain ⟨R, inexact, ⟨M, hround⟩, hR, hinexact, hresult⟩ :=
    round_of_le (m := m) (neg := false) hnum hden hF hexpHigh
  obtain ⟨hlo, hhi, hmid⟩ := standsForRoot_neighbours hstands hbits hround.upper
  have hM : F.magValue 0 < F.magValue M := magValue_strictMono F (pos_of_root_lt hF hlow hround.upper hhi)
  rw [magValue_zero] at hM
  rw [hresult, decide_eq_false hexpLow.not_gt] at hr
  exact ⟨_, M, R, inexact, hr, hR, hM, hinexact, hround, hlo, hhi, hmid⟩

/-- Settles O51: the fraction that is rounded stands for the root against both neighbours and their midpoint. -/
theorem squareRootRounds : Obligations.SquareRootRounds := by
  intro w F hF m a x ha hx r
  obtain ⟨y, M, R, inexact, hr, hR, hM, hinexact, hround, hlo, hhi, hmid⟩ := exists_root_rounding (m := m) hF ha hx
  obtain ⟨hflags, hexact⟩ := roundFlags_of_not_tiny inexact
  have hv : Denotes F r.1 (F.magValue R) := by simpa [r, hr] using denotes_withSign hF false hR
  have hr2 : r.2 = roundFlags inexact false := congrArg Prod.snd hr
  refine ⟨F.magValue R, hv, hM.trans_le hround.lo_le, hr2 ▸ hflags, ?_, fun b u hb hu0 => ?_⟩
  · rw [hr2, hexact, ← Bool.not_eq_true, hinexact, not_not, sq_eq_iff_of_roundedTo hround hlo hhi]
  · have hu : u ≤ F.magValue M ∨ F.magValue (M + 1) ≤ u := by simpa using le_or_ge_of_denotes hF hb false M
    refine ⟨fun hm => ?_, fun hm => ?_, fun hn => root_of_nearest hround hlo hhi hu hM.le hu0 hmid hn⟩
    · refine root_of_toward hround hlo hhi hu hM.le (hround.le_of_toward ?_ ?_)
      · obtain rfl | rfl := hm <;> simp [Nearest]
      · obtain rfl | rfl := hm <;> simp [AwayFromZero]
    · exact root_of_away hround hlo hhi hu hu0 (hround.ge_of_away (.inl ⟨hm, rfl⟩))

end Sys2Proof.Machine
end

section
/-! Control flow in numbers (45_control.md): a jump with link moves the pc to its target and writes the link, and a branch moves
the pc alone. -/

namespace Sys2Proof.Machine

open Sys2Proof.Spec

variable {s : State} {i : Instr} {len : Nat}

/-- A jump writes the link to rd, moves the pc to its target and leaves the rest (R552). -/
theorem setsX_of_jumpLink {rd : XReg} {target pc' : Word} (hi : exec i s = jumpLink len rd target s)
    (hpc : target = pc') : SetsX i s pc' rd (s.nextPc len) :=
  ⟨_, hi, hpc, xIs_wx s rd _ _, fun _ => rfl, rfl, fun _ => rfl, ⟨rfl, rfl⟩, sameHost_refl s⟩

/-- A branch moves the pc to one of its two successors and leaves the rest (R550). -/
theorem onlyPc_of_branch {taken : Bool} {p : Prop} [Decidable p] {off : Word} (hi : exec i s = branch len taken off s)
    (hp : taken = true ↔ p) : OnlyPc i s (if p then s.pc + off else s.nextPc len) :=
  ⟨_, hi, if_congr hp rfl rfl, fun _ => rfl, fun _ => rfl, rfl, fun _ => rfl, ⟨rfl, rfl⟩, sameHost_refl s⟩

/-- Clearing bit 0 is shifting it out and back, which rounds the address down to an even one (R551). -/
theorem indirectTarget_eq_ofNat (base off : Word) :
    indirectTarget base off = BitVec.ofNat 64 ((base + off).toNat / 2 * 2) := by
  have hmask : ~~~1#64 = BitVec.allOnes 64 <<< 1 := by decide
  rw [indirectTarget, hmask, ← BitVec.shiftLeft_ushiftRight, shiftLeft_eq_ofNat, BitVec.toNat_ushiftRight,
    Nat.shiftRight_eq_div_pow, Nat.pow_one]

/-- Settles O23: the base of JALR is read in the state before the link is written, and its sum loses bit 0. -/
theorem jumps : Obligations.Jumps := by
  intro s rd rs1 off imm
  exact ⟨setsX_of_jumpLink rfl rfl, setsX_of_jumpLink rfl (indirectTarget_eq_ofNat (s.rx rs1) (immSigned imm))⟩

/-- Settles O24: each branch is taken exactly if its comparison of the two registers' values holds. -/
theorem branches : Obligations.Branches := by
  intro s rs1 rs2 off a b target
  have heq : (a == b) = true ↔ a.toNat = b.toNat := beq_iff_eq.trans BitVec.toNat_eq
  have hne : (a != b) = true ↔ a.toNat ≠ b.toNat := bne_iff_ne.trans BitVec.toNat_eq.not
  exact ⟨onlyPc_of_branch rfl heq, onlyPc_of_branch rfl hne, onlyPc_of_branch rfl BitVec.slt_iff_toInt_lt,
    onlyPc_of_branch rfl BitVec.sle_iff_toInt_le, onlyPc_of_branch rfl BitVec.ult_iff_toNat_lt,
    onlyPc_of_branch rfl BitVec.ule_iff_toNat_le⟩

end Sys2Proof.Machine
end

section
/-! Atomics by the bytes they read and write (47_atomic.md): an aligned atomic access to mapped bytes is performed, and
what it leaves is its request's effect with rd and the pc written. -/

namespace Sys2Proof.Machine

open Sys2Proof.Spec

variable {s t : State} {i : Instr} {a v w : Word} {n : Nat} {rd rs1 rs2 : XReg} {aq rl : Bool}

/-! ## Atomic accesses -/

theorem admitAtomic_of_mapped {kinds : List AccessKind} (ha : a.toNat % n = 0) (hm : ∀ k ∈ kinds, MappedAll s a n k) :
    admitAtomic kinds a n s = none := by
  rw [admitAtomic, if_neg (not_not.mpr ha), checkMapped_eq_none]
  exact fun b hb k hk => hm k hk b hb

/-- The bytes of a state whose memory is that of `s` with `v` stored (R102). -/
theorem bytesAre_of_memWrite (hw : Memory.wf s.mem = true) (hn : n ≤ 8) (ht : t.mem = memWrite s.mem a n v) :
    BytesAre s t a n v := by
  rw [BytesAre, ht]
  exact ⟨fun _ hk => toNat_byteAt_memWrite hw a v hk hn, fun b hb => byteAt_memWrite_outside s.mem a n v b hb⟩

/-! ## The reservation (R610 to R613) -/

theorem State.reserve_of_plain (h : s.params.lrscMode = .plain) : SameResv s (s.reserve a n) := by
  simp [SameResv, State.reserve, h]

theorem State.reserve_of_reserve (h : s.params.lrscMode = .reserve) :
    (s.reserve a n).resv = some ⟨a, n⟩ ∧ (s.reserve a n).otherHartWrote = false := by
  simp [State.reserve, h]

theorem State.unreserve_resv_of_plain (h : s.params.lrscMode = .plain) : s.unreserve.resv = s.resv := by
  simp [State.unreserve, h]

theorem State.unreserve_resv_of_reserve (h : s.params.lrscMode = .reserve) : s.unreserve.resv = none := if_pos h

theorem State.scSucceeds_iff : s.scSucceeds a n = true ↔
    s.params.lrscMode = .plain ∨ (s.resv = some { addr := a, bytes := n } ∧ s.otherHartWrote = false) := by
  cases h : s.params.lrscMode <;> simp [State.scSucceeds, h]

/-! ## LR -/

/-- A doubleword is its own sign extension (R617). -/
theorem sextBytes_memRead_doubleword (m : Memory) (a : Word) :
    sextBytes 8 (memRead m a 8) = BitVec.ofNat 64 (leNat m a 8) :=
  (sextBytes_memRead m a (by decide)).trans BitVec.ofInt_toInt

/-- An LR of mapped bytes loads them, and takes the reservation where there is one (R610, R612). -/
theorem answers_of_loadReserved (hi : exec i s = loadReserved n rd rs1 aq rl s)
    (hv : sextBytes n (memRead s.mem (s.rx rs1) n) = v) (ha : (s.rx rs1).toNat % n = 0)
    (hm : MappedAll s (s.rx rs1) n .read) :
    Answers i s fun t => t.pc = s.pc + 4#64 ∧ XIs s t rd v ∧ SameF s t ∧ t.fcsr = s.fcsr ∧ SameBytes s t ∧
      ((s.params.lrscMode = .plain → SameResv s t) ∧
        (s.params.lrscMode = .reserve → t.resv = some { addr := s.rx rs1, bytes := n } ∧ t.otherHartWrote = false)) ∧
      SameHost s t := by
  have hadm : admission (.loadReserved (s.rx rs1) n aq rl) s = none :=
    admitAtomic_of_mapped ha (List.forall_mem_singleton.mpr hm)
  subst hv
  exact ⟨_, hi.trans (access_of_admitted hadm _), rfl, xIs_wx (s.reserve _ n) rd _ _, fun _ => rfl, rfl, fun _ => rfl,
    ⟨State.reserve_of_plain, State.reserve_of_reserve⟩, sameHost_refl s⟩

/-! ## SC -/

/-- The one next state of an SC of mapped bytes: memory and the answer in rd go by whether it succeeds, and the reservation
is given up in both cases (R611, R613). -/
theorem exec_of_storeConditional (hi : exec i s = storeConditional n rd rs1 rs2 aq rl s)
    (ha : (s.rx rs1).toNat % n = 0) (hm : MappedAll s (s.rx rs1) n .write) :
    exec i s = .next (((s.unreserve.withMem
      (if s.scSucceeds (s.rx rs1) n then memWrite s.mem (s.rx rs1) n (s.rx rs2) else s.mem)).wx rd
        (if s.scSucceeds (s.rx rs1) n then 0#64 else 1#64)).withPc (s.nextPc 4)) := by
  have hadm : admission (.storeConditional (s.rx rs1) n (s.rx rs2) aq rl) s = none :=
    admitAtomic_of_mapped ha (List.forall_mem_singleton.mpr hm)
  rw [hi, storeConditional, access_of_admitted hadm, perform]
  split <;> rfl

/-- What an SC of mapped bytes does, by whether the store is made (R610, R611, R613). -/
theorem answers_of_storeConditional (hi : exec i s = storeConditional n rd rs1 rs2 aq rl s) (hn : n ≤ 8)
    (hw : Memory.wf s.mem = true) (ha : (s.rx rs1).toNat % n = 0) (hm : MappedAll s (s.rx rs1) n .write) :
    Answers i s fun t => t.pc = s.pc + 4#64 ∧ SameF s t ∧ t.fcsr = s.fcsr ∧ SameHost s t ∧
      t.otherHartWrote = s.otherHartWrote ∧
      (s.params.lrscMode = .plain → t.resv = s.resv) ∧ (s.params.lrscMode = .reserve → t.resv = none) ∧
      (s.scSucceeds (s.rx rs1) n = true → XIs s t rd 0#64 ∧ BytesAre s t (s.rx rs1) n (s.rx rs2)) ∧
      (¬ s.scSucceeds (s.rx rs1) n = true → XIs s t rd 1#64 ∧ SameBytes s t) := by
  refine ⟨_, exec_of_storeConditional hi ha hm, rfl, fun _ => rfl, rfl, sameHost_refl s, rfl,
    State.unreserve_resv_of_plain, State.unreserve_resv_of_reserve, fun hok => ?_, fun hfail => ?_⟩
  · rw [if_pos hok, if_pos hok]
    exact ⟨xIs_wx (s.unreserve.withMem _) rd _ _, bytesAre_of_memWrite hw hn rfl⟩
  · rw [if_neg hfail, if_neg hfail]
    exact ⟨xIs_wx (s.unreserve.withMem _) rd _ _, fun _ => rfl⟩

/-! ## AMOs -/

/-- Sign extension keeps the order of signed values. -/
theorem sextBytes_sle_iff (hn : n ≤ 8) (x y : Word) :
    (sextBytes n x).sle (sextBytes n y) = true ↔ (x.setWidth (8 * n)).toInt ≤ (y.setWidth (8 * n)).toInt := by
  have hbits : 8 * n ≤ 64 := by omega
  rw [BitVec.sle_iff_toInt_le, sextBytes, sextBytes, BitVec.toInt_signExtend_of_le hbits,
    BitVec.toInt_signExtend_of_le hbits]

/-- Zero extension keeps the order of unsigned values. -/
theorem zextBytes_ule_iff (hn : n ≤ 8) (x y : Word) :
    (zextBytes n x).ule (zextBytes n y) = true ↔ (x.setWidth (8 * n)).toNat ≤ (y.setWidth (8 * n)).toNat := by
  have hbits : 8 * n ≤ 64 := by omega
  rw [BitVec.ule_iff_toNat_le, zextBytes, zextBytes, BitVec.toNat_setWidth_of_le hbits,
    BitVec.toNat_setWidth_of_le hbits]

/-- The AMO's result is R601's function on the low bytes, zero-extended (R602). -/
theorem amoResult_eq_amoNew (kind : AmoKind) (hn : n ≤ 8) (old v : Word) :
    amoResult kind n old v = (amoNew kind (old.setWidth (8 * n)) (v.setWidth (8 * n))).setWidth 64 := by
  have hzext (x : Word) : (x.setWidth (8 * n)).setWidth 64 = zextBytes n x := rfl
  cases kind with
  | swap => rfl
  | add =>
    rw [amoResult, zextBytes, BitVec.setWidth_add _ _ (by omega), amoNew, BitVec.ofNat_add, BitVec.ofNat_toNat,
      BitVec.ofNat_toNat, BitVec.setWidth_eq, BitVec.setWidth_eq]
  | xor => rw [amoResult, zextBytes, BitVec.setWidth_xor, amoNew]
  | and => rw [amoResult, zextBytes, BitVec.setWidth_and, amoNew]
  | or => rw [amoResult, zextBytes, BitVec.setWidth_or, amoNew]
  | min | max => simp only [amoResult, amoNew, sextBytes_sle_iff hn, apply_ite (BitVec.setWidth 64), hzext]
  | minu | maxu => simp only [amoResult, amoNew, zextBytes_ule_iff hn, apply_ite (BitVec.setWidth 64), hzext]

theorem amoResult_memRead (kind : AmoKind) (m : Memory) (a v : Word) (hn : n ≤ 8) :
    amoResult kind n (memRead m a n) v =
      (amoNew kind (BitVec.ofNat (8 * n) (leNat m a n)) (v.setWidth (8 * n))).setWidth 64 := by
  rw [amoResult_eq_amoNew kind hn, memRead_eq_ofNat m a hn, BitVec.setWidth_ofNat_of_le (by omega)]

/-- An AMO of mapped bytes writes the old value to rd and the new one to memory (R601); rd is written last (R605). -/
theorem setsXStores_of_readModifyWrite {kind : AmoKind} (hi : exec i s = readModifyWrite kind n rd rs1 rs2 aq rl s)
    (hv : sextBytes n (memRead s.mem (s.rx rs1) n) = v)
    (hnew : amoResult kind n (memRead s.mem (s.rx rs1) n) (s.rx rs2) = w) (hn : n ≤ 8) (hw : Memory.wf s.mem = true)
    (ha : (s.rx rs1).toNat % n = 0) (hr : MappedAll s (s.rx rs1) n .read) (hm : MappedAll s (s.rx rs1) n .write) :
    SetsXStores i s rd v (s.rx rs1) n w := by
  have hadm : admission (.amo kind (s.rx rs1) n (s.rx rs2) aq rl) s = none :=
    admitAtomic_of_mapped ha (List.forall_mem_cons.mpr ⟨hr, List.forall_mem_singleton.mpr hm⟩)
  subst hv hnew
  exact ⟨_, hi.trans (access_of_admitted hadm _), rfl, xIs_wx (s.withMem _) rd _ _, fun _ => rfl, rfl,
    bytesAre_of_memWrite hw hn rfl, ⟨rfl, rfl⟩, sameHost_refl s⟩

end Sys2Proof.Machine

namespace Sys2Proof.Spec

open Sys2Proof.Machine

/-- Settles O31: an admitted LR, in both widths. -/
theorem loadReserved : Obligations.LoadReserved := by
  intro s rd rs1 aq rl a resv
  refine ⟨fun ha hm => ?_, fun ha hm => ?_⟩
  · exact answers_of_loadReserved rfl (sextBytes_memRead _ _ (by decide)) ha hm
  · exact answers_of_loadReserved rfl (sextBytes_memRead_doubleword _ _) ha hm

/-- Settles O32: what an admitted SC does by `scSucceeds`, which is the statement's condition, in both widths. -/
theorem storeConditional : Obligations.StoreConditional := by
  intro s rd rs1 rs2 aq rl hw a ok after
  simp only [after, ok, ← State.scSucceeds_iff]
  exact ⟨fun ha hm => answers_of_storeConditional rfl (by decide) hw ha hm,
    fun ha hm => answers_of_storeConditional rfl (by decide) hw ha hm⟩

/-- Settles O33: all kinds of a width are one argument, as each result is R601's function on that width. -/
theorem atomicReadModifyWrite : Obligations.AtomicReadModifyWrite := by
  refine ⟨?_, ?_⟩
  all_goals intro s rd rs1 rs2 aq rl hw a old effect ha hr hm
  · have amo {i kind} (hi : exec i s = readModifyWrite kind 4 rd rs1 rs2 aq rl s) : effect i kind :=
      setsXStores_of_readModifyWrite hi (sextBytes_memRead _ _ (by decide)) (amoResult_memRead _ _ _ _ (by decide))
        (by decide) hw ha hr hm
    exact ⟨amo rfl, amo rfl, amo rfl, amo rfl, amo rfl, amo rfl, amo rfl, amo rfl, amo rfl⟩
  · have amo {i kind} (hi : exec i s = readModifyWrite kind 8 rd rs1 rs2 aq rl s) : effect i kind := by
      have hnew : amoResult kind 8 (memRead s.mem a 8) (s.rx rs2) = amoNew kind old (s.rx rs2) := by
        simpa using amoResult_memRead (n := 8) kind s.mem a (s.rx rs2) (by decide)
      exact setsXStores_of_readModifyWrite hi (sextBytes_memRead_doubleword _ _) hnew (by decide) hw ha hr hm
    exact ⟨amo rfl, amo rfl, amo rfl, amo rfl, amo rfl, amo rfl, amo rfl, amo rfl, amo rfl⟩

end Sys2Proof.Spec
end

section
/-! The host's return from a system call (48_system.md R655, R656; R852): what it writes and what stays. -/

namespace Sys2Proof.Machine

open Sys2Proof.Spec

variable {s : State}

/-- After a Syscall the host answers with the free value (R655). -/
theorem afterStop_of_isSyscall {r : StopRecord} (h : r.event.isSyscall = true) :
    afterStop r s = .next (hostReturn (Config.syscall s.hostCalls s.syscallView) s) := by
  unfold afterStop
  cases he : r.event with
  | syscall => rfl
  | _ =>
    rw [he] at h
    exact absurd h Bool.false_ne_true

/-- Settles O12: a result is a register write beside the host's writes of bytes, and an exit leaves the memory alone. -/
theorem syscallResumes : Obligations.SyscallResumes := by
  intro s r hs hr
  refine ⟨(step_of_stopped hs).trans (afterStop_of_isSyscall hr), ?_, ?_⟩
  · intro v ws m t
    refine ⟨xIs_wx s 10#5 v s.pc, fun _ => rfl, rfl, rfl, rfl, fun a => byteAt_writeBytes_other s.mem ws, ?_,
      State.unreserve_resv_of_reserve, State.unreserve_resv_of_plain, rfl, rfl, rfl, rfl⟩
    rintro hw before c later rfl hlater
    exact byteAt_writeBytes_last hw before c later hlater
  · obtain ⟨-, hstatus, hx, hf⟩ := hostReturn_exit s
    exact ⟨rfl, rfl, rfl, hstatus, fun _ => rfl, hx, hf, rfl, rfl, rfl⟩

end Sys2Proof.Machine
end

section
/-! Fences, environment calls and CSR instructions (48_system.md R650 to R653, R658 to R665): the CSRs in numbers, and what
follows where an instruction takes a stop event, retires with no result, or accesses a CSR. -/

namespace Sys2Proof.Machine

open Sys2Proof.Spec

variable {s : State} {i : Instr}

/-! ## The CSRs in numbers (R61, R65) -/

theorem toNat_fflagsOf (c : BitVec 8) : (fflagsOf c).toNat = c.toNat % 32 := by
  rw [fflagsOf, BitVec.extractLsb'_toNat, Nat.shiftRight_zero]

theorem fcsrOf_eq_ofNat (frm : BitVec 3) (fl : FlagSet) : fcsrOf frm fl = BitVec.ofNat 8 (frm.toNat * 32 + fl.toNat) := by
  have hnat : (fcsrOf frm fl).toNat = frm.toNat * 32 + fl.toNat := by
    rw [fcsrOf, BitVec.toNat_append, ← Nat.shiftLeft_add_eq_or_of_lt fl.isLt, Nat.shiftLeft_eq]
  rw [← hnat, BitVec.ofNat_toNat, BitVec.setWidth_eq]

theorem csrRead_eq_csrValue (fcsr : BitVec 8) (csr : Csr) : csrRead fcsr csr = csrValue fcsr csr := by
  cases csr with
  | fflags => rw [csrRead, csrValue, ← toNat_fflagsOf, BitVec.ofNat_toNat]
  | frm => rw [csrRead, csrValue, ← toNat_frmOf, BitVec.ofNat_toNat]
  | fcsr => rw [csrRead, csrValue, BitVec.ofNat_toNat]

/-- A field that is written takes the low bits of the value, and the other field stays. -/
theorem csrWrite_eq_csrAfter (fcsr : BitVec 8) (v : Word) (csr : Csr) : csrWrite fcsr v csr = csrAfter fcsr v csr := by
  cases csr with
  | fflags => rw [csrWrite, csrAfter, fcsrOf_eq_ofNat, toNat_frmOf, BitVec.toNat_setWidth]
  | frm => rw [csrWrite, csrAfter, fcsrOf_eq_ofNat, toNat_fflagsOf, BitVec.toNat_setWidth]
  | fcsr => exact BitVec.eq_of_toNat_eq (by simp [csrWrite, csrAfter])

/-! ## CSR instructions (R658) -/

/-- An access that writes gives rd the old value and the CSR the new one. -/
theorem setsCsr_of_csrAccess {rd : XReg} {csr : Csr} {v w : Word} (hi : exec i s = csrAccess rd csr (some v) s)
    (hv : v = w) : SetsCsr i s rd (csrValue s.fcsr csr) (csrAfter s.fcsr w csr) := by
  subst hv
  rw [← csrRead_eq_csrValue, ← csrWrite_eq_csrAfter]
  exact ⟨_, hi, rfl, xIs_wx s rd _ (s.nextPc 4), fun _ => rfl, rfl, fun _ => rfl, ⟨rfl, rfl⟩, sameHost_refl s⟩

/-- An access that only reads leaves fcsr as it was. -/
theorem setsCsr_of_csrAccess_none {rd : XReg} {csr : Csr} (hi : exec i s = csrAccess rd csr none s) :
    SetsCsr i s rd (csrValue s.fcsr csr) s.fcsr := by
  rw [← csrRead_eq_csrValue]
  exact ⟨_, hi, rfl, xIs_wx s rd _ _, fun _ => rfl, rfl, fun _ => rfl, ⟨rfl, rfl⟩, sameHost_refl s⟩

/-- The set and clear forms write unless their operand field is 0 (R661, R662, R664, R665). -/
theorem setsCsr_of_csrAccess_ite {rd : XReg} {csr : Csr} {p q : Prop} [Decidable p] [Decidable q] {v w : Word}
    (hi : exec i s = csrAccess rd csr (if p then none else some v) s) (hpq : p ↔ q) (hv : v = w) :
    SetsCsr i s rd (csrValue s.fcsr csr) (if q then s.fcsr else csrAfter s.fcsr w csr) := by
  by_cases hp : p
  · rw [if_pos hp] at hi
    rw [if_pos (hpq.mp hp)]
    exact setsCsr_of_csrAccess_none hi
  · rw [if_neg hp] at hi
    rw [if_neg (mt hpq.mpr hp)]
    exact setsCsr_of_csrAccess hi hv

/-- Settles O37: each form is one access, its new value read from the old one in numbers. -/
theorem csrInstructions : Obligations.CsrInstructions := by
  intro s rd rs1 c u old x z
  have hold : csrRead s.fcsr c = old := csrRead_eq_csrValue s.fcsr c
  have hz : u.setWidth 64 = z := (BitVec.ofNat_toNat 64 u).symm
  have hu : u = 0#5 ↔ u.toNat = 0 := BitVec.toNat_eq
  exact ⟨setsCsr_of_csrAccess rfl rfl,
    setsCsr_of_csrAccess_ite rfl Iff.rfl (congrArg (· ||| x) hold),
    setsCsr_of_csrAccess_ite rfl Iff.rfl (congrArg (· &&& ~~~x) hold),
    setsCsr_of_csrAccess rfl hz,
    setsCsr_of_csrAccess_ite rfl hu (congrArg₂ (· ||| ·) hold hz),
    setsCsr_of_csrAccess_ite rfl hu (congrArg₂ (· &&& ~~~·) hold hz)⟩

/-! ## Environment calls and fences -/

/-- An instruction that takes a stop event does nothing else (R803). -/
theorem stops_of_raise {e : StopEvent} (hi : exec i s = raise e s) : Stops i s e := by
  obtain ⟨t, ht, hstop⟩ := raise_stoppedAs e s
  exact ⟨t, hi.trans ht, hstop⟩

/-- Settles O11: each of the three takes its event. -/
theorem environmentCallsStop : Obligations.EnvironmentCallsStop :=
  fun _ => ⟨stops_of_raise rfl, stops_of_raise rfl, stops_of_raise rfl⟩

/-- An instruction that retires with no result moves the pc past itself and leaves the rest (R58). -/
theorem onlyPc_of_retire {len : Nat} (hi : exec i s = retire len s) : OnlyPc i s (s.nextPc len) :=
  ⟨_, hi.trans (retire_next len s), rfl, fun _ => rfl, fun _ => rfl, rfl, fun _ => rfl, ⟨rfl, rfl⟩, sameHost_refl s⟩

/-- Settles O36: both retire with no result; a FENCE has its event, and a FENCE.I asks nothing of the load-store unit. -/
theorem fencesMoveOnlyPc : Obligations.FencesMoveOnlyPc :=
  fun _ _ _ _ _ _ _ _ => ⟨onlyPc_of_retire rfl, onlyPc_of_retire rfl, rfl, rfl⟩

end Sys2Proof.Machine
end

section
/-! Compressed instructions in numbers (49_compressed.md): the operations of the expansions on the compressed immediates, at
pc + 2. -/

namespace Sys2Proof.Machine

open Sys2Proof.Spec

variable {s : State} {i : Instr}

/-! ## Immediates (R170 to R180) -/

theorem toInt_offsetSigned {n : Nat} (hn : n ≤ 64) (v : BitVec n) : (offsetSigned v).toInt = v.toInt :=
  BitVec.toInt_signExtend_of_le hn

/-- The zero-extended offset of a compressed access is its unsigned value. -/
theorem State.addrC_eq_add_ofNat {n : Nat} (s : State) (r : XReg) (u : BitVec n) :
    s.addrC r u = s.rx r + BitVec.ofNat 64 u.toNat :=
  congrArg (s.rx r + ·) (BitVec.ofNat_toNat 64 u).symm

/-! ## Jumps without an offset or a link -/

theorem indirectTarget_zero (base : Word) : indirectTarget base 0#64 = BitVec.ofNat 64 (base.toNat / 2 * 2) := by
  rw [indirectTarget_eq_ofNat, BitVec.add_zero]

/-- An instruction whose result goes to x0 only moves the pc (R51). -/
theorem onlyPc_of_setsX_zero {pc' v : Word} (h : SetsX i s pc' 0#5 v) : OnlyPc i s pc' := by
  obtain ⟨t, ht, hpc, hx, hrest⟩ := h
  exact ⟨t, ht, hpc, fun j => (hx j).trans (if_neg fun hj => hj.2 rfl), hrest⟩

/-! ## The operations -/

/-- Settles O58: each result is the expansion's on the compressed immediate, C.LI and C.MV add to x0, and C.NOP, C.J and C.JR
write to x0. -/
theorem compressedAluAndJumps : Obligations.CompressedAluAndJumps := by
  refine ⟨?_, ?_⟩
  · intro s rd rs2 imm k z z16 u a b i at2
    have hspn : s.rx 2#5 + offsetUnsigned z = s.rx 2#5 + BitVec.ofNat 64 z.toNat :=
      s.addrC_eq_add_ofNat 2#5 z
    have haddiw : viewW (· + ·) a (offsetSigned imm) = sextW (a.toInt + imm.toInt) := by
      rw [viewW_add, toInt_offsetSigned (by decide)]
    have hk := shiftAmount_setWidth k
    exact ⟨setsX_of_retireX rfl hspn, onlyPc_of_setsX_zero (setsX_of_retireX rfl rfl), setsX_of_retireX rfl rfl,
      setsX_of_retireX rfl haddiw, setsX_of_retireX rfl (BitVec.zero_add i), setsX_of_retireX rfl rfl,
      setsX_of_retireX rfl rfl, setsX_of_retireX rfl (shiftRight_of_amount a hk),
      setsX_of_retireX rfl (shiftRightArith_of_amount a hk), setsX_of_retireX rfl (shiftLeft_of_amount a hk),
      setsX_of_retireX rfl rfl, setsX_of_retireX rfl (sub_eq_ofInt a b), setsX_of_retireX rfl rfl,
      setsX_of_retireX rfl rfl, setsX_of_retireX rfl rfl, setsX_of_retireX rfl (viewW_sub a b),
      setsX_of_retireX rfl (viewW_add a b), setsX_of_retireX rfl (BitVec.zero_add b),
      setsX_of_retireX rfl (add_eq_ofInt a b)⟩
  · intro s rs1 j b a target
    have heq : (a == s.rx 0#5) = true ↔ a.toNat = 0 := beq_iff_eq.trans (eq_zero_iff_toNat a)
    have hne : (a != s.rx 0#5) = true ↔ a.toNat ≠ 0 := bne_iff_ne.trans (eq_zero_iff_toNat a).not
    have htarget : indirectTarget a 0#64 = target := indirectTarget_zero a
    exact ⟨onlyPc_of_setsX_zero (setsX_of_jumpLink rfl rfl), onlyPc_of_branch rfl heq, onlyPc_of_branch rfl hne,
      onlyPc_of_setsX_zero (setsX_of_jumpLink rfl htarget), setsX_of_jumpLink rfl htarget⟩

/-- Settles O59: each address is that of the model's compressed access, and an admitted access reads or writes its bytes. -/
theorem compressedMemory : Obligations.CompressedMemory := by
  intro s rd rs1 rs2 f u4 u8 v4 v8 hw off ok word dword p
  have hword (a : Word) : sextBytes 4 (memRead s.mem a 4) = word a := sextBytes_memRead _ _ (by decide)
  have hdword (a : Word) : memRead s.mem a 8 = dword a := memRead_eq_ofNat _ _ (by decide)
  simp only [off, ← State.addrC_eq_add_ofNat]
  refine ⟨?lw, ?ld, ?sw, ?sd, ?lwsp, ?ldsp, ?swsp, ?sdsp⟩ <;> rintro ⟨ha, hm⟩
  case lw | lwsp => exact setsX_of_loadX rfl (hword _) ha hm
  case ld | ldsp => exact ⟨setsX_of_loadX rfl (hdword _) ha hm, setsF_of_loadF rfl (hdword _) ha hm⟩
  case sw | swsp => exact stores_of_storeBytes rfl (by decide) hw ha hm
  case sd | sdsp =>
    exact ⟨stores_of_storeBytes rfl (by decide) hw ha hm, stores_of_storeBytes rfl (by decide) hw ha hm⟩

end Sys2Proof.Machine
end

section
/-! Stop events, launch and the spec's example words (60_exceptions.md, 70_reset_and_hazards.md). A stop is precise: what an
instruction asks of the load-store unit, once admitted, is performed and the instruction goes on, so a stopped one made no data
event. -/

namespace Sys2Proof.Machine

open Sys2Proof.Spec

variable {s t : State} {i : Instr} {q : LsuReq} {r : StopRecord}

/-! ## A stop leaves the state and made no data event (R803) -/

/-- Where there is a request, the answer is that of the load-store unit to it, from whose state the instruction goes on with the
status as it is. -/
def GoesOnFrom (s : State) (answer : Result) (request : Option LsuReq) : Prop :=
  ∀ q ∈ request, ∃ k, answer = access q s k ∧ ∀ v t, ∃ u, k v t = .next u ∧ u.status = t.status

theorem access_goesOnFrom {q' : LsuReq} {k : Word → State → Result} (h : q' = q)
    (hk : ∀ v t, ∃ u, k v t = .next u ∧ u.status = t.status) : GoesOnFrom s (access q s k) (some q') := by
  intro _ hq
  obtain rfl := Option.some.inj hq
  exact h ▸ ⟨k, rfl, hk⟩

theorem loadX_goesOnFrom {a b : Word} (len : Nat) (rd : XReg) (n : Nat) (ext : Word → Word) (h : a = b) :
    GoesOnFrom s (loadX len rd b n ext s) (some (.load a n)) :=
  access_goesOnFrom (congrArg (LsuReq.load · n) h) fun _ _ => ⟨_, rfl, rfl⟩

theorem loadF_goesOnFrom {a b : Word} (len : Nat) (frd : FReg) (n : Nat) (box : Word → Word) (h : a = b) :
    GoesOnFrom s (loadF len frd b n box s) (some (.load a n)) :=
  access_goesOnFrom (congrArg (LsuReq.load · n) h) fun _ _ => ⟨_, rfl, rfl⟩

theorem storeBytes_goesOnFrom {a b : Word} (len n : Nat) (v : Word) (h : a = b) :
    GoesOnFrom s (storeBytes len b n v s) (some (.store a n v)) :=
  access_goesOnFrom (congrArg (LsuReq.store · n v) h) fun _ _ => ⟨_, rfl, rfl⟩

theorem loadReserved_goesOnFrom (n : Nat) (rd rs1 : XReg) (aq rl : Bool) (s : State) :
    GoesOnFrom s (loadReserved n rd rs1 aq rl s) (some (.loadReserved (s.rx rs1) n aq rl)) :=
  access_goesOnFrom rfl fun _ _ => ⟨_, rfl, rfl⟩

theorem storeConditional_goesOnFrom (n : Nat) (rd rs1 rs2 : XReg) (aq rl : Bool) (s : State) :
    GoesOnFrom s (storeConditional n rd rs1 rs2 aq rl s) (some (.storeConditional (s.rx rs1) n (s.rx rs2) aq rl)) :=
  access_goesOnFrom rfl fun _ _ => ⟨_, rfl, rfl⟩

theorem readModifyWrite_goesOnFrom (kind : AmoKind) (n : Nat) (rd rs1 rs2 : XReg) (aq rl : Bool) (s : State) :
    GoesOnFrom s (readModifyWrite kind n rd rs1 rs2 aq rl s) (some (.amo kind (s.rx rs1) n (s.rx rs2) aq rl)) :=
  access_goesOnFrom rfl fun _ _ => ⟨_, rfl, rfl⟩

theorem goesOnFrom_none (s : State) (answer : Result) : GoesOnFrom s answer none := nofun

/-- Every instruction with a request goes on once the request is admitted: only the load-store unit stops it. -/
theorem exec_goesOnFrom (i : Instr) (s : State) : GoesOnFrom s (exec i s) (dataRequest i s) := by
  unfold exec dataRequest
  cases i with
  | lb | lh | lw | ld | lbu | lhu | lwu => exact loadX_goesOnFrom _ _ _ _ rfl
  | flw | fld => exact loadF_goesOnFrom _ _ _ _ rfl
  | sb | sh | sw | sd | fsw | fsd => exact storeBytes_goesOnFrom _ _ _ rfl
  | cLw _ r u | cLd _ r u => exact loadX_goesOnFrom _ _ _ _ (addr_setWidth (by decide) s r u)
  | cLwsp _ u | cLdsp _ u => exact loadX_goesOnFrom _ _ _ _ (addr_setWidth (by decide) s 2#5 u)
  | cFld _ r u => exact loadF_goesOnFrom _ _ _ _ (addr_setWidth (by decide) s r u)
  | cFldsp _ u => exact loadF_goesOnFrom _ _ _ _ (addr_setWidth (by decide) s 2#5 u)
  | cSw _ r u | cSd _ r u | cFsd _ r u => exact storeBytes_goesOnFrom _ _ _ (addr_setWidth (by decide) s r u)
  | cSwsp _ u | cSdsp _ u | cFsdsp _ u => exact storeBytes_goesOnFrom _ _ _ (addr_setWidth (by decide) s 2#5 u)
  | lrW | lrD => exact loadReserved_goesOnFrom _ _ _ _ _ s
  | scW | scD => exact storeConditional_goesOnFrom _ _ _ _ _ _ s
  | amoswapW | amoaddW | amoxorW | amoandW | amoorW | amominW | amomaxW | amominuW | amomaxuW
  | amoswapD | amoaddD | amoxorD | amoandD | amoorD | amominD | amomaxD | amominuD | amomaxuD =>
    exact readModifyWrite_goesOnFrom _ _ _ _ _ _ _ s
  -- every other instruction asks nothing
  | _ => exact goesOnFrom_none s _

/-- A stopped instruction's request, if it has one, was not admitted (R105). -/
theorem admission_ne_none_of_stopped (hs : s.status = .running) (ht : exec i s = .next t) (hr : t.status = .stopped r)
    (hq : dataRequest i s = some q) : admission q s ≠ none := by
  intro hadm
  obtain ⟨k, hk, hgo⟩ := exec_goesOnFrom i s q hq
  obtain ⟨u, hu, hstatus⟩ := hgo (perform q s).1 (perform q s).2
  have hnext := hk.trans ((access_of_admitted hadm k).trans hu)
  obtain rfl := Host.Outcome.next.inj (hnext.symm.trans ht)
  have hrunning := hstatus.trans ((perform_status q s).trans hs)
  exact absurd (hrunning.symm.trans hr) nofun

/-- A FENCE always completes (R650). -/
theorem isFence_eq_false_of_stopped (hs : s.status = .running) (ht : exec i s = .next t) (hr : t.status = .stopped r) :
    isFence i = false := by
  cases i with
  | fence =>
    obtain rfl := Host.Outcome.next.inj ht
    exact absurd (hs.symm.trans hr) nofun
  | _ => rfl

theorem dataEvents_eq_nil_of_stopped (n : Nat) (hs : s.status = .running) (ht : exec i s = .next t)
    (hr : t.status = .stopped r) : dataEvents n i s = [] := by
  cases hq : dataRequest i s with
  | none => simp only [dataEvents, isFence_eq_false_of_stopped hs ht hr, hq, Bool.false_eq_true, if_false]
  | some q =>
    have hadm := admission_ne_none_of_stopped hs ht hr hq
    rw [dataEvents_of_request hq, if_neg (by simpa using hadm)]

/-- Of the two ways a running hart's step can end, only the stop event leaves it stopped. -/
theorem stoppedAs_of_step (hs : s.status = .running) (ht : step s = .next t) (hr : t.status = .stopped r) :
    StoppedAs s t r.event := by
  obtain ⟨e, he⟩ | ⟨u, hu, -, hstatus⟩ := step_stopsOrCompletes hs
  · obtain ⟨u, hu, hstop⟩ := raise_stoppedAs e s
    obtain rfl := Host.Outcome.next.inj ((he.trans hu).symm.trans ht)
    obtain rfl := Status.stopped.inj (hstop.1.symm.trans hr)
    exact hstop
  · obtain rfl := Host.Outcome.next.inj (hu.symm.trans ht)
    exact absurd ((hstatus.trans hs).symm.trans hr) nofun

/-- Settles O9: the step is a stop event, and the instruction it fetched, if any, made no data event. -/
theorem stopsArePrecise : Obligations.StopsArePrecise := by
  intro s t r n hs ht hr
  refine ⟨stoppedAs_of_step hs ht hr, ?_⟩
  cases hf : fetchInstr s with
  | instr i =>
    have hnil := dataEvents_eq_nil_of_stopped n hs ((step_of_instr hs hf).symm.trans ht) hr
    simp only [stepEvents, hs, hf, hnil, List.append_nil]
  | stop e => simp only [stepEvents, hs, hf]

/-! ## A hart stopped for good (R805, R852) -/

theorem afterStop_of_code_le (s : State) (h : r.event.code ≤ 7) : afterStop r s = .fault (.stoppedForGood r) := by
  unfold afterStop
  cases he : r.event with
  | syscall => exact absurd (he ▸ h) (by simp [StopEvent.code])
  | _ => rfl

/-- Settles O10: a stopped hart's step is `afterStop`, which only a Syscall (code 8) gets past. -/
theorem stoppedForGood : Obligations.StoppedForGood := fun s =>
  ⟨fun _ hs h => (step_of_stopped hs).trans (afterStop_of_code_le s h), fun _ hs => step_of_ended hs⟩

/-! ## Launch (R850) -/

/-- Settles O13: each is the field's value at launch. -/
theorem launchState : Obligations.LaunchState := ⟨rfl, rfl, rfl, rfl, rfl, rfl, rfl⟩

/-- Settles O14: nothing is listed or reserved at launch, the hart runs, and its pc is the even 0x1000. -/
theorem launchMeetsInvariant : Obligations.LaunchMeetsInvariant where
  memory := rfl
  x0 := rfl
  pcEven := rfl
  plainNoResv := fun _ => rfl
  resvAligned := nofun
  record := nofun

/-! ## The spec's example words -/

/-- Settles O3, by running the decoder on each word. -/
theorem exampleWordsDecode : Obligations.ExampleWordsDecode := by
  unfold Obligations.ExampleWordsDecode
  decide

end Sys2Proof.Machine
end
